-- ==== Sys2Proof/Word.lean ====
section
/-! DEFINITION. The words of the machine: bytes and the fixed-width numbers of the spec (00_scope section 6: every value
is unsigned, bit 0 is the least significant bit). -/

namespace Sys2Proof

/-- A byte, 0..255 (00_scope section 6). -/
abbrev Byte := BitVec 8

/-- A byte string: a finite sequence of bytes, offset 0 first (00_scope section 6). -/
abbrev Bytes := List Byte

end Sys2Proof
end

