-- ==== Sys2Proof/Config.lean ====
section
/-! DEFINITION. What is fixed for the machine and stands in its types, and the values the spec leaves open. The numeric
parameters of 00_scope R4 that an operation uses stand in Machine/Params.lean. -/

namespace Sys2Proof.Config

/-- `W_RS` (00_scope R4, 42_header_signature R111): the width in bits of the operands `r` and `s` of `SIG.PACK`. -/
abbrev wRs : Nat := 264

/-- DESIGN CHOICE, safe (log entry 9). A FREE VALUE: the number that stands in the 8-byte length prefix of a result of
`n >= 2^64` bytes. `le64` is defined below 2^64 only (30_encoding R61), and `CONT.JOIN` is the one operation whose result
can be longer; nothing is known of this value. -/
opaque longLength : Nat → BitVec 64

end Sys2Proof.Config
end

