-- ==== Sys2Proof/Machine/Params.lean ====
section
/-! DEFINITION. The block's parameters, by the names and values of 00_scope R4. They are named constants so that a later
correction of a number touches one place (70_reset R196). Each is reducible and unfolded by simp. -/

namespace Sys2Proof.Machine

/-- `CRC_POLY`. -/
@[simp] abbrev crcPoly : BitVec 16 := 0x1021#16

/-- `CRC_INIT`. -/
@[simp] abbrev crcInitValue : BitVec 16 := 0x0000#16

/-- `FRAME_SIZE`: bytes in a wire frame. -/
@[simp] abbrev frameSize : Nat := 19

/-- `META_SIZE`: bytes of metadata. -/
@[simp] abbrev metaSize : Nat := 1

/-- `PAYLOAD_SIZE`: bytes of padded payload. -/
@[simp] abbrev payloadSize : Nat := 16

/-- `CRCF_SIZE`: bytes of the frame's CRC field. -/
@[simp] abbrev crcfSize : Nat := 2

/-- `LEN_BITS`: metadata bits [4:0]. -/
@[simp] abbrev lenBits : Nat := 5

/-- `TYPE_BITS`: metadata bits [7:5]. -/
@[simp] abbrev typeBits : Nat := 3

/-- The packet type value of `DATA` (30_encoding R52). -/
@[simp] abbrev dataTypeCode : Byte := 0#8

/-- The packet type value of `CONTROL` (30_encoding R52). -/
@[simp] abbrev controlTypeCode : Byte := 1#8

/-- The control operation code of `ACK` (30_encoding R54). -/
@[simp] abbrev ackCode : Byte := 0x06#8

/-- The control operation code of `NACK` (30_encoding R54). -/
@[simp] abbrev nackCode : Byte := 0x15#8

/-- The control operation code of `RETX` (30_encoding R54). -/
@[simp] abbrev retxCode : Byte := 0x18#8

/-- The control operation code of `SYNCED` (30_encoding R54). -/
@[simp] abbrev syncedCode : Byte := 0x16#8

/-- The control operation code of `UPDATE_REQUEST` (30_encoding R54). -/
@[simp] abbrev updateRequestCode : Byte := 0x11#8

/-- The control operation code of `FW_SIZE_REQUEST` (30_encoding R54). -/
@[simp] abbrev fwSizeRequestCode : Byte := 0x12#8

/-- The control operation code of `FW_UPDATE_DONE` (30_encoding R54). -/
@[simp] abbrev fwUpdateDoneCode : Byte := 0x04#8

/-- `PAD_BYTE` (conflict C2). -/
@[simp] abbrev padByte : Byte := 0xFF#8

/-- `HDR_SIZE`: bytes in the firmware header (conflict C1, decision D16). -/
@[simp] abbrev hdrSize : Nat := 128

/-- `HDR_FIXED`: bytes of `version`, `device_id` and `payload_size`. -/
@[simp] abbrev hdrFixed : Nat := 12

/-- `SIG_SIZE`: bytes of the signature field. -/
@[simp] abbrev sigSize : Nat := 64

/-- `SIG_INT_SIZE`: bytes of each of `r` and `s`. -/
@[simp] abbrev sigIntSize : Nat := 32

/-- Bytes of each of `r` and `s` as operands of `SIG.PACK`: `W_RS / 8`, 33 (30_encoding R61). -/
@[simp] abbrev rsSize : Nat := Config.wRs / 8

/-- Bytes of a 32-bit field, `le32` (00_scope section 6). -/
@[simp] abbrev fieldSize : Nat := 4

/-- Bytes of the length in front of a counted byte string, `le64` (30_encoding R61). -/
@[simp] abbrev lenPrefixSize : Nat := 8

/-- `HDR_PAD` = `HDR_SIZE - HDR_FIXED - SIG_SIZE`, 52 (conflict C1, decision D16). -/
@[simp] abbrev hdrPad : Nat := hdrSize - hdrFixed - sigSize

/-- `HDR_PAD_BYTE`. -/
@[simp] abbrev hdrPadByte : Byte := 0xFF#8

/-- `IV_SIZE`. -/
@[simp] abbrev ivSize : Nat := 16

/-- `BLOCK`: the cipher block size the plaintext is padded to. -/
@[simp] abbrev blockSize : Nat := 16

/-- `BODY_MAX`: the largest body length `payload_size` can hold. -/
@[simp] abbrev bodyMax : Nat := 2 ^ 32 - 1

/-- The default of the OPEN parameter `STRICT_PAD` (decision D19); the parameter itself is a field of State. -/
@[simp] abbrev strictPadDefault : Bool := false

end Sys2Proof.Machine
end

