-- ==== Sys2Proof/Machine/Bytes.lean ====
section
/-! DEFINITION. Slices of byte strings and the conversions between integers and byte strings of 00_scope section 6. -/

namespace Sys2Proof.Machine

/-- `B[a ..< b]`: the bytes at offsets `a`, ..., `b - 1`. -/
def slice (a b : Nat) (bs : Bytes) : Bytes := (bs.drop a).take (b - a)

/-- The `k` bytes of `v`, least significant byte at offset 0: `le16`, `le32`, `le64` for `k` = 2, 4, 8. -/
def leBytes : Nat → Nat → Bytes
  | 0, _ => []
  | k + 1, v => BitVec.ofNat 8 v :: leBytes k (v / 256)

/-- The number whose bytes, least significant first, are `bs`: `unle16`, `unle32`. -/
def unle : Bytes → Nat
  | [] => 0
  | b :: bs => b.toNat + 256 * unle bs

/-- `be(k, v)`: the `k` bytes of `v`, most significant byte at offset 0. -/
def beBytes (k v : Nat) : Bytes := (leBytes k v).reverse

/-- `unbe(B)`: the sum over `i` of `B[i] * 256^(len(B)-1-i)`. -/
def unbe (bs : Bytes) : Nat := unle bs.reverse

/-- `le16(v)`. -/
def le16 (v : BitVec 16) : Bytes := leBytes crcfSize v.toNat

/-- `le32(v)`. -/
def le32 (v : BitVec 32) : Bytes := leBytes fieldSize v.toNat

/-- The 8-byte length prefix `le64(n)` of a counted byte string (30_encoding R61, R62). At `n >= 2^64` the spec states no
prefix, and a free value stands there (log entry 9). -/
def lengthPrefix (n : Nat) : Bytes :=
  leBytes lenPrefixSize (if n < 2 ^ (8 * lenPrefixSize) then n else (Config.longLength n).toNat)

/-- A byte string behind its length: `le64(n) ‖ bytes[n]` (30_encoding R61, R62). -/
def counted (bs : Bytes) : Bytes := lengthPrefix bs.length ++ bs

end Sys2Proof.Machine
end

