-- ==== Sys2Proof/Syntax.lean ====
section
/-! DEFINITION. The instruction type: one constructor per row of spec/opcode_table.json, in the table's order. An
"instruction" of this block is an operation the host issues, with the operands that operation's rule names (30_encoding
R77). Byte strings whose length a format fixes are lists here; WellFormed says their lengths. -/

namespace Sys2Proof

/-- The operations of the block (30_encoding R63), then the nine table rows that are no operations (R79 groups b and c). -/
inductive Instr where
  /-- `SYS.RESET` (43_system R130). -/
  | sysReset
  /-- `SYS.STATUS` (43_system R131). -/
  | sysStatus
  /-- `SYS.CLRERR` (43_system R132). -/
  | sysClrerr
  /-- `CRC.INIT` (40_crc R82). -/
  | crcInit
  /-- `CRC.BYTE b` (40_crc R83). -/
  | crcByte (b : Byte)
  /-- `CRC.READ` (40_crc R84). -/
  | crcRead
  /-- `PKT.ENCODE type, payload` (41_packet R90): the type operand is a whole byte, so that a type the operation must
  reject can be spelled (30_encoding R71). -/
  | pktEncode (type : Byte) (payload : Bytes)
  /-- `PKT.DECODE frame` (41_packet R91): any length, since a wrong one must be rejected by the operation. -/
  | pktDecode (frame : Bytes)
  /-- `PKT.RAW` (41_packet R92). -/
  | pktRaw
  /-- `PKT.VALID` (41_packet R93). -/
  | pktValid
  /-- `PKT.ISOP op` (41_packet R94). -/
  | pktIsop (op : Byte)
  /-- `PKT.TYPE` (41_packet R95). -/
  | pktType
  /-- `PKT.LEN` (41_packet R96). -/
  | pktLen
  /-- `PKT.PAYLOAD` (41_packet R97). -/
  | pktPayload
  /-- `PKT.CRC` (41_packet R98). -/
  | pktCrc
  /-- `RX.PUSH b` (41_packet R99). -/
  | rxPush (b : Byte)
  /-- `SIG.PACK r, s` (42_header_signature R113): both operands of `W_RS` bits (R111). -/
  | sigPack (r s : BitVec Config.wRs)
  /-- `SIG.UNPACK sig` (42_header_signature R114): 64 bytes. -/
  | sigUnpack (sig : Bytes)
  /-- `HDR.PACK version, device_id, payload_size, sig` (42_header_signature R115): `sig` is 64 bytes. -/
  | hdrPack (version deviceId payloadSize : BitVec 32) (sig : Bytes)
  /-- `HDR.PARSE hdr` (42_header_signature R116): 128 bytes. -/
  | hdrParse (hdr : Bytes)
  /-- `IMG.BUILD version, device_id, sig, body` (42_header_signature R119): `sig` is 64 bytes. -/
  | imgBuild (version deviceId : BitVec 32) (sig body : Bytes)
  /-- `IMG.EXTRACT plaintext` (42_header_signature R120). -/
  | imgExtract (plaintext : Bytes)
  /-- `CONT.JOIN iv, ct` (42_header_signature R121): `iv` is 16 bytes. -/
  | contJoin (iv ct : Bytes)
  /-- `CONT.SPLIT container` (42_header_signature R122). -/
  | contSplit (container : Bytes)
  /-- Row `DATA` (30_encoding R52): the byte `0x00 + length` as a whole command (log entry 7). -/
  | data (length : BitVec Machine.lenBits)
  /-- Row `CONTROL` (30_encoding R52): the byte `0x20 + length` as a whole command (log entry 7). -/
  | control (length : BitVec Machine.lenBits)
  /-- Row `ACK` (30_encoding R54): the byte `0x06` as a whole command (log entry 7). -/
  | ack
  /-- Row `NACK` (30_encoding R54): the byte `0x15` as a whole command (log entry 7). -/
  | nack
  /-- Row `RETX` (30_encoding R54): the byte `0x18` as a whole command (log entry 7). -/
  | retx
  /-- Row `SYNCED` (30_encoding R54): the byte `0x16` as a whole command (log entry 7). -/
  | synced
  /-- Row `UPDATE_REQUEST` (30_encoding R54): the byte `0x11` as a whole command (log entry 7). -/
  | updateRequest
  /-- Row `FW_SIZE_REQUEST` (30_encoding R54): the byte `0x12` as a whole command (log entry 7). -/
  | fwSizeRequest
  /-- Row `FW_UPDATE_DONE` (30_encoding R54): the byte `0x04` as a whole command (log entry 7). -/
  | fwUpdateDone
  deriving DecidableEq, Repr

end Sys2Proof
end

