-- ==== Sys2Proof/WellFormed.lean ====
section
/-! DEFINITION. Which terms of Instr can be presented at the command port: a byte string has the length its format fixes,
or a length that `le64` can spell (30_encoding R61, 20_memory R41); and a DATA row's byte is not one of the bytes the table
gives to a control operation code. -/

namespace Sys2Proof

/-- The length of a counted byte string fits its `le64` prefix (30_encoding R61). -/
abbrev Countable (bs : Bytes) : Prop := bs.length < 2 ^ (8 * Machine.lenPrefixSize)

/-- The control operation codes, as lengths of a DATA metadata byte: `0x00 + length` is then the word of another row, whose
mask is the whole byte (30_encoding R54, R79). -/
def controlCodeLengths : List (BitVec Machine.lenBits) :=
  [Machine.ackCode, Machine.nackCode, Machine.retxCode, Machine.syncedCode, Machine.updateRequestCode,
    Machine.fwSizeRequestCode, Machine.fwUpdateDoneCode].map (·.setWidth Machine.lenBits)

/-- The operands are within the ranges their formats and rules give them (30_encoding R61, 42_header_signature R111). -/
def Instr.WellFormed : Instr → Prop
  | .pktEncode _ payload => Countable payload
  | .pktDecode frame => Countable frame
  | .sigUnpack sig => sig.length = Machine.sigSize
  | .hdrPack _ _ _ sig => sig.length = Machine.sigSize
  | .hdrParse hdr => hdr.length = Machine.hdrSize
  | .imgBuild _ _ sig body => sig.length = Machine.sigSize ∧ Countable body
  | .imgExtract plaintext => Countable plaintext
  | .contJoin iv ct => iv.length = Machine.ivSize ∧ Countable ct
  | .contSplit container => Countable container
  | .data length => length ∉ controlCodeLengths
  | .sysReset | .sysStatus | .sysClrerr | .crcInit | .crcByte _ | .crcRead => True
  | .pktRaw | .pktValid | .pktIsop _ | .pktType | .pktLen | .pktPayload | .pktCrc | .rxPush _ => True
  | .sigPack _ _ | .control _ => True
  | .ack | .nack | .retx | .synced | .updateRequest | .fwSizeRequest | .fwUpdateDone => True

end Sys2Proof
end

