-- ==== Sys2Proof/Decode.lean ====
section
/-! DEFINITION. From the byte string at the command port to an instruction, total on any bytes, and back
(30_encoding R61, R63, R75, R79). -/

namespace Sys2Proof

open Machine

/-- The operand formats of 30_encoding R61. -/
inductive Format where
  | n | b | e | v | s | f64 | h | f128 | i | j
  deriving DecidableEq, Repr

/-- How many operand bytes a format has, the `le64(n)` of its byte string included and the `n` bytes themselves left out. -/
def Format.fixedLen : Format → Nat
  | .n => 0
  | .b => 1
  | .e => 1 + lenPrefixSize
  | .v => lenPrefixSize
  | .s => rsSize + rsSize
  | .f64 => sigSize
  | .h => hdrFixed + sigSize
  | .f128 => hdrSize
  | .i => 2 * fieldSize + sigSize + lenPrefixSize
  | .j => ivSize + lenPrefixSize

/-- Whether a format ends in a counted byte string. -/
def Format.isCounted : Format → Bool
  | .e | .v | .i | .j => true
  | .n | .b | .s | .f64 | .h | .f128 => false

/-- How many operand bytes a command of this format must have, read from its own operand bytes. -/
def Format.need (f : Format) (ops : Bytes) : Nat :=
  f.fixedLen + if f.isCounted then unle (slice (f.fixedLen - lenPrefixSize) f.fixedLen ops) else 0

/-- A row of the table of command codes: the code, the format, and the instruction that operand bytes of the right length
spell. -/
structure CommandRow where
  code : Byte
  format : Format
  build : Bytes → Instr

/-- A field of operand bytes as a 32-bit little-endian number. -/
def field32 (at' : Nat) (ops : Bytes) : BitVec 32 := BitVec.ofNat 32 (unle (slice at' (at' + fieldSize) ops))

/-- A field of `W_RS / 8` operand bytes as a `W_RS`-bit big-endian number. -/
def fieldRs (at' : Nat) (ops : Bytes) : BitVec Config.wRs := BitVec.ofNat Config.wRs (unbe (slice at' (at' + rsSize) ops))

/-- The 24 command codes of 30_encoding R63 with the operand places of R61. -/
def commandRows : List CommandRow :=
  [ ⟨0x80#8, .n, fun _ => .sysReset⟩,
    ⟨0x81#8, .n, fun _ => .sysStatus⟩,
    ⟨0x82#8, .n, fun _ => .sysClrerr⟩,
    ⟨0x90#8, .n, fun _ => .crcInit⟩,
    ⟨0x91#8, .b, fun ops => .crcByte (ops.headD 0#8)⟩,
    ⟨0x92#8, .n, fun _ => .crcRead⟩,
    ⟨0xA0#8, .e, fun ops => .pktEncode (ops.headD 0#8) (ops.drop (1 + lenPrefixSize))⟩,
    ⟨0xA1#8, .v, fun ops => .pktDecode (ops.drop lenPrefixSize)⟩,
    ⟨0xA2#8, .n, fun _ => .pktRaw⟩,
    ⟨0xA3#8, .n, fun _ => .pktValid⟩,
    ⟨0xA4#8, .b, fun ops => .pktIsop (ops.headD 0#8)⟩,
    ⟨0xA5#8, .n, fun _ => .pktType⟩,
    ⟨0xA6#8, .n, fun _ => .pktLen⟩,
    ⟨0xA7#8, .n, fun _ => .pktPayload⟩,
    ⟨0xA8#8, .n, fun _ => .pktCrc⟩,
    ⟨0xA9#8, .b, fun ops => .rxPush (ops.headD 0#8)⟩,
    ⟨0xB0#8, .s, fun ops => .sigPack (fieldRs 0 ops) (fieldRs rsSize ops)⟩,
    ⟨0xB1#8, .f64, fun ops => .sigUnpack ops⟩,
    ⟨0xB2#8, .h, fun ops => .hdrPack (field32 0 ops) (field32 fieldSize ops) (field32 (2 * fieldSize) ops)
      (ops.drop hdrFixed)⟩,
    ⟨0xB3#8, .f128, fun ops => .hdrParse ops⟩,
    ⟨0xB4#8, .i, fun ops => .imgBuild (field32 0 ops) (field32 fieldSize ops)
      (slice (2 * fieldSize) (2 * fieldSize + sigSize) ops) (ops.drop (2 * fieldSize + sigSize + lenPrefixSize))⟩,
    ⟨0xB5#8, .v, fun ops => .imgExtract (ops.drop lenPrefixSize)⟩,
    ⟨0xB6#8, .j, fun ops => .contJoin (slice 0 ivSize ops) (ops.drop (ivSize + lenPrefixSize))⟩,
    ⟨0xB7#8, .v, fun ops => .contSplit (ops.drop lenPrefixSize)⟩ ]

/-- The row of a command code. -/
def commandRow (code : Byte) : Option CommandRow := commandRows.find? (fun r => r.code == code)

/-- The control operation codes of 30_encoding R54, in the table's order. -/
def controlRows : List (Byte × Instr) :=
  [ (ackCode, .ack), (nackCode, .nack), (retxCode, .retx), (syncedCode, .synced), (updateRequestCode, .updateRequest),
    (fwSizeRequestCode, .fwSizeRequest), (fwUpdateDoneCode, .fwUpdateDone) ]

/-- The table row, among the nine that are no operations, whose word a byte is: the rows with mask `0xFF` before the two
with mask `0xE0` (30_encoding R79). DEDUCED (log entry 7). -/
def otherRow (byte : Byte) : Option Instr :=
  match controlRows.lookup byte with
  | some i => some i
  | none =>
    if byte >>> lenBits = dataTypeCode then some (.data (byte.extractLsb' 0 lenBits))
    else if byte >>> lenBits = controlTypeCode then some (.control (byte.extractLsb' 0 lenBits))
    else none

/-- Why a byte string spells no instruction. Every one of these is answered `ERR_BAD_COMMAND` (30_encoding R75). -/
inductive Reject where
  /-- The command has no bytes, so no code. -/
  | noCode
  /-- The first byte is none of the 24 command codes (and the command is not a table row's lone byte). -/
  | undefinedCode (code : Byte)
  /-- Fewer bytes than the code's format requires. -/
  | tooShort (code : Byte)
  /-- More bytes than the code's format requires. -/
  | tooLong (code : Byte)
  deriving DecidableEq, Repr

/-- What the decoder answers. -/
inductive Decoded where
  | instr (i : Instr)
  | reject (r : Reject)
  deriving DecidableEq, Repr

/-- The decoder: the first byte is the code, and the total length is exactly what its format requires (30_encoding R61,
R63). A lone byte that is the word of one of the nine other table rows is that row's instruction (log entry 7). -/
def decode : Bytes → Decoded
  | [] => .reject .noCode
  | code :: ops =>
    match commandRow code with
    | some row =>
      if ops.length < row.format.need ops then .reject (.tooShort code)
      else if row.format.need ops < ops.length then .reject (.tooLong code)
      else .instr (row.build ops)
    | none =>
      match ops, otherRow code with
      | [], some i => .instr i
      | _, _ => .reject (.undefinedCode code)

/-- The encoder: the bytes of a command, written from 30_encoding R61 and R63. -/
def encode : Instr → Bytes
  | .sysReset => [0x80#8]
  | .sysStatus => [0x81#8]
  | .sysClrerr => [0x82#8]
  | .crcInit => [0x90#8]
  | .crcByte b => [0x91#8, b]
  | .crcRead => [0x92#8]
  | .pktEncode type payload => 0xA0#8 :: type :: counted payload
  | .pktDecode frame => 0xA1#8 :: counted frame
  | .pktRaw => [0xA2#8]
  | .pktValid => [0xA3#8]
  | .pktIsop op => [0xA4#8, op]
  | .pktType => [0xA5#8]
  | .pktLen => [0xA6#8]
  | .pktPayload => [0xA7#8]
  | .pktCrc => [0xA8#8]
  | .rxPush b => [0xA9#8, b]
  | .sigPack r s => 0xB0#8 :: (beBytes rsSize r.toNat ++ beBytes rsSize s.toNat)
  | .sigUnpack sig => 0xB1#8 :: sig
  | .hdrPack version deviceId size sig => 0xB2#8 :: (le32 version ++ le32 deviceId ++ le32 size ++ sig)
  | .hdrParse hdr => 0xB3#8 :: hdr
  | .imgBuild version deviceId sig body => 0xB4#8 :: (le32 version ++ le32 deviceId ++ sig ++ counted body)
  | .imgExtract plaintext => 0xB5#8 :: counted plaintext
  | .contJoin iv ct => 0xB6#8 :: (iv ++ counted ct)
  | .contSplit container => 0xB7#8 :: counted container
  | .data length => [dataTypeCode.setWidth typeBits ++ length]
  | .control length => [controlTypeCode.setWidth typeBits ++ length]
  | .ack => [ackCode]
  | .nack => [nackCode]
  | .retx => [retxCode]
  | .synced => [syncedCode]
  | .updateRequest => [updateRequestCode]
  | .fwSizeRequest => [fwSizeRequestCode]
  | .fwUpdateDone => [fwUpdateDoneCode]

/-- Operand bytes, with as many zero bytes after them as a command of this code needs to be well formed. -/
def zeroFill (code : Byte) (ops : Bytes) : Bytes :=
  match commandRow code with
  | none => ops
  | some row =>
    let fixed := ops ++ List.replicate (row.format.fixedLen - ops.length) 0#8
    fixed ++ List.replicate (row.format.need fixed - fixed.length) 0#8

/-- The command whose first bytes are the low `nbits` bits of `w`, least significant byte first, and whose further operand
bytes are zero: the instruction a word of spec/opcode_table.json stands for (log entry 10). -/
def tableWordCommand (nbits w : Nat) : Bytes :=
  match leBytes ((nbits + 7) / 8) w with
  | [] => []
  | code :: ops => code :: zeroFill code ops

/-- The instruction the decoder reads from a word of spec/opcode_table.json. -/
def decodeTableWord (nbits w : Nat) : Option Instr :=
  match decode (tableWordCommand nbits w) with
  | .instr i => some i
  | .reject _ => none

end Sys2Proof
end

