-- ==== Sys2Proof/Machine/CrcUnit.lean ====
section
/-! DEFINITION. The two functions of the CRC unit (40_crc R80, R81). -/

namespace Sys2Proof.Machine

/-- One round: test the high bit before the shift, shift left by one with a 0 coming in, and XOR the polynomial if the high
bit was set (40_crc R80). -/
def crcRound (c : BitVec 16) : BitVec 16 :=
  if c.getLsbD 15 then (c <<< 1) ^^^ crcPoly else c <<< 1

/-- `k` rounds. -/
def crcRounds : Nat → BitVec 16 → BitVec 16
  | 0, c => c
  | k + 1, c => crcRounds k (crcRound c)

/-- `crc_step(c, b)` (40_crc R80): the byte goes into bits [15:8], and eight rounds follow. -/
def crcStep (c : BitVec 16) (b : Byte) : BitVec 16 :=
  crcRounds 8 (c ^^^ (b.setWidth 16 <<< 8))

/-- `crc16_xmodem(B)` (40_crc R81): the left fold of `crc_step` from `CRC_INIT`, with no final XOR. -/
def crc16Xmodem (bs : Bytes) : BitVec 16 := bs.foldl crcStep crcInitValue

end Sys2Proof.Machine
end

