-- ==== Sys2Proof/Machine/State.lean ====
section
/-! DEFINITION. The state of the block (10_state, 70_reset R180), plain data, and the reasons a step can stop (none is
ever used: no behaviour of the block is stuck, 60_exceptions R168). -/

namespace Sys2Proof.Machine

/-- The packet register `PKT` while it is loaded (10_state R12). -/
structure Packet where
  /-- `PKT.META`: bits [4:0] the declared length, bits [7:5] the type. -/
  metadata : Byte
  /-- `PKT.PAY[0..15]`: the 16 payload bytes as on the wire, pad included, offset 0 first. -/
  payload : Bytes
  /-- `PKT.CRCF`: the stored CRC as a number. -/
  crcf : BitVec 16
  deriving DecidableEq, Repr

/-- Error codes of 60_exceptions R160, without `OK`. -/
inductive ErrorCode where
  | frameSize
  | payloadSize
  | badType
  | empty
  | length
  | sigEncoding
  | malformedImage
  | bodySize
  | badCommand
  deriving DecidableEq, Repr

/-- The state of the block and of its command port. -/
structure State where
  /-- `CRC`, the CRC unit's register (10_state R11). -/
  crc : BitVec 16
  /-- `PKT` and `PKT_LOADED` (10_state R12, R13): `PKT_LOADED` is 1 exactly when there is a packet here, and while it is 0
  the contents of `PKT` have no value (log entry 4). -/
  pkt : Option Packet
  /-- `RXBUF` and `RXCNT` (10_state R15): the bytes of the current, incomplete frame, offset 0 first; `RXCNT` is how many
  there are, and `RXBUF` has no value above them (log entry 5). -/
  rxbuf : Bytes
  /-- `ERR` (10_state R17): the code of the last error, 0 if there has been none. -/
  err : BitVec 4
  /-- The OPEN parameter `STRICT_PAD` (00_scope R4); no operation changes it. DESIGN CHOICE, safe (log entry 6). -/
  strictPad : Bool
  /-- The commands the host has yet to issue, oldest first (30_encoding R60). DESIGN CHOICE, safe (log entry 1). -/
  commands : List Bytes
  /-- The response to the last command (30_encoding R62), empty before the first. DESIGN CHOICE, safe (log entry 2). -/
  response : Bytes
  deriving DecidableEq, Repr

/-- Faults. There are none, and nothing raises one: no error of the block is fatal, and there is no stuck or halted state
(60_exceptions R168). An operation that errs goes on, by `State.raise`. -/
inductive Fault
  deriving DecidableEq, Repr

/-- Refusals. -/
inductive Refusal where
  /-- An instruction that has no meaning yet, raised by `exec` alone. Safe. No arm of `exec` is left that raises it. -/
  | notModelled (mnemonic : String)
  deriving DecidableEq, Repr

/-- The state after power-on (10_state R23, 70_reset R180): `CRC` = 0, no packet, an empty accumulator, no error. No command
has been issued and none answered (log entries 1 and 2). -/
def State.reset : State where
  crc := crcInitValue
  pkt := none
  rxbuf := []
  err := 0#4
  strictPad := strictPadDefault
  commands := []
  response := []

end Sys2Proof.Machine
end

