-- ==== Sys2Proof/Machine/Operands.lean ====
section
/-! DEFINITION. The data layouts that operations take apart and put together: the metadata byte and the frame
(30_encoding R50 to R54), the signature and the header (R56, R57), the plaintext image and the container (R58). -/

namespace Sys2Proof.Machine

/-- The packet types the document names (30_encoding R52). -/
inductive PacketType where
  | data
  | control
  deriving DecidableEq, Repr

/-- The value of a packet type (30_encoding R52). -/
def PacketType.code : PacketType → Byte
  | .data => dataTypeCode
  | .control => controlTypeCode

/-- The packet type a type operand names; 2..255 name none (30_encoding R71). -/
def packetTypeOf (type : Byte) : Option PacketType :=
  if type = dataTypeCode then some .data else if type = controlTypeCode then some .control else none

/-- The control operations (30_encoding R54). -/
inductive ControlOp where
  | ack
  | nack
  | retx
  | synced
  | updateRequest
  | fwSizeRequest
  | fwUpdateDone
  deriving DecidableEq, Repr

/-- The code of a control operation, carried in `payload[0]` of a CONTROL packet (30_encoding R54). -/
def ControlOp.code : ControlOp → Byte
  | .ack => ackCode
  | .nack => nackCode
  | .retx => retxCode
  | .synced => syncedCode
  | .updateRequest => updateRequestCode
  | .fwSizeRequest => fwSizeRequestCode
  | .fwUpdateDone => fwUpdateDoneCode

/-- The control operation of a code, if it is one of the seven (30_encoding R73). -/
def controlOpOf (code : Byte) : Option ControlOp :=
  [ControlOp.ack, .nack, .retx, .synced, .updateRequest, .fwSizeRequest, .fwUpdateDone].find? (fun op => op.code == code)

/-- Assembly of the metadata byte, `type * 32 + length` (30_encoding R51). -/
def metaByte (type : PacketType) (length : Nat) : Byte := BitVec.ofNat 8 (type.code.toNat * 2 ^ lenBits + length)

/-- `length(meta) = meta[4:0]` (30_encoding R51). -/
def metaLength (m : Byte) : BitVec lenBits := m.extractLsb' 0 lenBits

/-- `type(meta) = meta[7:5]` (30_encoding R51). -/
def metaType (m : Byte) : BitVec typeBits := m.extractLsb' lenBits typeBits

/-- The payload right-padded to 16 bytes with `PAD_BYTE` (41_packet R90). -/
def padPayload (payload : Bytes) : Bytes := payload ++ List.replicate (payloadSize - payload.length) padByte

/-- The bytes the frame's CRC covers: the metadata and the whole payload field (20_memory R36). -/
def Packet.covered (p : Packet) : Bytes := p.metadata :: p.payload

/-- The CRC of the covered bytes, computed afresh. -/
def Packet.computedCrc (p : Packet) : BitVec 16 := crc16Xmodem p.covered

/-- The frame: `metadata ‖ payload ‖ le16(crc)` (30_encoding R50, 41_packet R92). -/
def Packet.frame (p : Packet) : Bytes := p.covered ++ le16 p.crcf

/-- The packet of a 19-byte frame: the fields at their fixed offsets, nothing checked (20_memory R36, 41_packet R91). -/
def packetOfFrame (frame : Bytes) : Packet where
  metadata := frame.headD 0#8
  payload := slice metaSize (metaSize + payloadSize) frame
  crcf := BitVec.ofNat 16 (unle (slice (metaSize + payloadSize) frameSize frame))

/-- The packet that `PKT.ENCODE` makes of a payload of at most 16 bytes (41_packet R90). -/
def encodedPacket (type : PacketType) (payload : Bytes) : Packet :=
  let metadata := metaByte type payload.length
  let padded := padPayload payload
  { metadata := metadata, payload := padded, crcf := crc16Xmodem (metadata :: padded) }

/-- The rows of groups (b) and (c) of the opcode table that a packet matches, each at its own place: the packet type at frame
byte 0, and the control operation at frame byte 1 of a CONTROL packet (30_encoding R79). -/
def Packet.frameRows (p : Packet) : Option PacketType × Option ControlOp :=
  let type := packetTypeOf ((metaType p.metadata).setWidth 8)
  (type, if type = some .control then controlOpOf (p.payload.headD 0#8) else none)

/-- `signature = be(32, r) ‖ be(32, s)` (30_encoding R57). -/
def signatureBytes (r s : Nat) : Bytes := beBytes sigIntSize r ++ beBytes sigIntSize s

/-- `r = unbe(signature[0 ..< 32])` (30_encoding R57). -/
def signatureR (sig : Bytes) : Nat := unbe (slice 0 sigIntSize sig)

/-- `s = unbe(signature[32 ..< 64])` (30_encoding R57). -/
def signatureS (sig : Bytes) : Nat := unbe (slice sigIntSize sigSize sig)

/-- The fields of a firmware header (20_memory R37). -/
structure Header where
  version : BitVec 32
  deviceId : BitVec 32
  payloadSize : BitVec 32
  sig : Bytes
  deriving DecidableEq, Repr

/-- The three integers and the signature, which is also how a response spells a header (30_encoding R62). -/
def Header.fields (h : Header) : Bytes := le32 h.version ++ le32 h.deviceId ++ le32 h.payloadSize ++ h.sig

/-- Header assembly (30_encoding R56, 42_header_signature R115). -/
def Header.pack (h : Header) : Bytes := h.fields ++ List.replicate hdrPad hdrPadByte

/-- Header disassembly; the bytes from offset 76 are not read (30_encoding R56, 42_header_signature R116). -/
def parseHeader (hdr : Bytes) : Header where
  version := BitVec.ofNat 32 (unle (slice 0 fieldSize hdr))
  deviceId := BitVec.ofNat 32 (unle (slice fieldSize (2 * fieldSize) hdr))
  payloadSize := BitVec.ofNat 32 (unle (slice (2 * fieldSize) hdrFixed hdr))
  sig := slice hdrFixed (hdrFixed + sigSize) hdr

/-- The PKCS7 pad length for a string of `m` bytes, 1..16 (42_header_signature R118). -/
def padLength (m : Nat) : Nat := blockSize - m % blockSize

/-- The PKCS7 pad: `p` bytes of value `p` (42_header_signature R118). PRESUMED by the spec itself, unsafe (log entry 11). -/
def pkcs7Pad (m : Nat) : Bytes := List.replicate (padLength m) (BitVec.ofNat 8 (padLength m))

/-- The plaintext image `header ‖ body ‖ pad`, `payload_size` being the body's length (42_header_signature R119). -/
def imageBytes (version deviceId : BitVec 32) (sig body : Bytes) : Bytes :=
  let hdr : Header := { version, deviceId, payloadSize := BitVec.ofNat 32 body.length, sig }
  hdr.pack ++ body ++ pkcs7Pad body.length

/-- The header and the body of a plaintext image, or nothing where the image is malformed (42_header_signature R120). With
`strictPad` the total length must also be the one the pad rule gives. -/
def extractImage (strictPad : Bool) (plaintext : Bytes) : Option (Header × Bytes) :=
  if plaintext.length < hdrSize then none
  else
    let hdr := parseHeader (plaintext.take hdrSize)
    let size := hdr.payloadSize.toNat
    if hdrSize + size > plaintext.length then none
    else if plaintext.length ≠ hdrSize + size + padLength size ∧ strictPad then none
    else some (hdr, slice hdrSize (hdrSize + size) plaintext)

/-- The IV and the ciphertext of a container, or nothing where it has no IV or its ciphertext is not whole blocks
(42_header_signature R122). -/
def splitContainer (container : Bytes) : Option (Bytes × Bytes) :=
  if container.length < ivSize ∨ (container.length - ivSize) % blockSize ≠ 0 then none
  else some (container.take ivSize, container.drop ivSize)

end Sys2Proof.Machine
end

