-- ==== Sys2Proof/Machine/Flags.lean ====
section
/-! DEFINITION. The one stored bit, the STATUS view, and the two questions about a packet that are computed each time they
are asked and stored nowhere (10_state R13, R16, R18). -/

namespace Sys2Proof.Machine

/-- `PKT_LOADED` (10_state R13). -/
def State.pktLoaded (s : State) : Bool := s.pkt.isSome

/-- `RXCNT` (10_state R15). -/
def State.rxcnt (s : State) : Nat := s.rxbuf.length

/-- `STATUS` (10_state R18, 43_system R131): `RXCNT + 32 * PKT_LOADED + 256 * ERR`. -/
def State.status (s : State) : BitVec 16 :=
  BitVec.ofNat 16 (s.rxcnt + 32 * s.pktLoaded.toNat + 256 * s.err.toNat)

/-- `is_valid` (41_packet R93): false if the declared length is above 16, false if the stored CRC is not the recomputed
one, true otherwise. -/
def Packet.isValid (p : Packet) : Bool :=
  if (metaLength p.metadata).toNat > payloadSize then false
  else if p.crcf ≠ p.computedCrc then false
  else true

/-- `is_operation` (41_packet R94): the type is CONTROL and `payload[0]` is `op`; nothing else is looked at. -/
def Packet.isOperation (p : Packet) (op : Byte) : Bool :=
  (metaType p.metadata).setWidth 8 == PacketType.control.code && p.payload.headD 0#8 == op

/-- A truth value as the result byte `0x00` or `0x01` (30_encoding R62). -/
def flagByte (b : Bool) : Byte := if b then 0x01#8 else 0x00#8

end Sys2Proof.Machine
end

