-- ==== Sys2Proof/Machine/Ops.lean ====
section
/-! DEFINITION. The named operations over the state that the meanings share: answering, raising an error (the block's whole
exception entry, 60_exceptions R166), reading and loading the packet register, the receive accumulator, reset, and taking
the next command. There is no return from an error, because nothing was entered (60_exceptions R168). -/

namespace Sys2Proof.Machine

/-- What a step answers. -/
abbrev Answer := Host.Outcome State Fault Refusal

/-- The number of an error code (60_exceptions R160). -/
def ErrorCode.code : ErrorCode → BitVec 4
  | .frameSize => 1#4
  | .payloadSize => 2#4
  | .badType => 3#4
  | .empty => 4#4
  | .length => 5#4
  | .sigEncoding => 6#4
  | .malformedImage => 7#4
  | .bodySize => 8#4
  | .badCommand => 15#4

/-- The result code `OK` as the first response byte (30_encoding R62). -/
def okByte : Byte := 0x00#8

/-- An error code as the first response byte (30_encoding R62). -/
def ErrorCode.byte (e : ErrorCode) : Byte := e.code.setWidth 8

/-- `return v`: the response is `OK` and the result bytes; `ERR` is not written (30_encoding R62, 10_state R17). -/
def State.answer (s : State) (result : Bytes) : Answer := .next { s with response := okByte :: result }

/-- `raise E`: the response is the code alone, `ERR <- E`, and no other register is written (60_exceptions R166, R167). -/
def State.raise (s : State) (e : ErrorCode) : Answer := .next { s with err := e.code, response := [e.byte] }

/-- `need PKT`: an operation that reads `PKT` raises `ERR_EMPTY` while `PKT_LOADED = 0` (10_state R13, 41_packet). -/
def State.needPkt (s : State) (read : Packet → Answer) : Answer :=
  match s.pkt with
  | none => s.raise .empty
  | some p => read p

/-- Loading `PKT`, which also sets `PKT_LOADED` and overwrites what `PKT` held (10_state R12, R13). -/
def State.loadPkt (s : State) (p : Packet) : State := { s with pkt := some p }

/-- `RX.PUSH` before the last byte of a frame: `RXBUF[RXCNT] <- b; RXCNT <- RXCNT + 1` (41_packet R99). -/
def State.rxStore (s : State) (b : Byte) : State := { s with rxbuf := s.rxbuf ++ [b] }

/-- `RX.PUSH` of the last byte of a frame: the 18 stored bytes and `b` are the frame that is loaded, and `RXCNT <- 0`
(41_packet R99). -/
def State.rxComplete (s : State) (b : Byte) : State :=
  { s.loadPkt (packetOfFrame (s.rxbuf.take (frameSize - 1) ++ [b])) with rxbuf := [] }

/-- The state `SYS.RESET` leaves: every register of the block as after power-on (43_system R130). The host's commands, the
response and the parameter `STRICT_PAD` are not the block's registers and stay (70_reset R181, log entries 1, 2 and 6). -/
def State.resetRegisters (s : State) : State :=
  { State.reset with strictPad := s.strictPad, commands := s.commands, response := s.response }

/-- Taking the next command the host issues: its bytes, and the state with it taken (30_encoding R60). -/
def State.takeCommand (s : State) : Option (Bytes × State) :=
  match s.commands with
  | [] => none
  | bytes :: rest => some (bytes, { s with commands := rest })

end Sys2Proof.Machine
end

