-- ==== Sys2Proof/Machine/Crc.lean ====
section
/-! DEFINITION. The operations of the CRC unit (40_crc R82 to R84). -/

namespace Sys2Proof.Machine

/-- `CRC.INIT` (40_crc R82). -/
def execCrcInit (s : State) : Answer := { s with crc := crcInitValue }.answer []

/-- `CRC.BYTE b` (40_crc R83). -/
def execCrcByte (b : Byte) (s : State) : Answer := { s with crc := crcStep s.crc b }.answer []

/-- `CRC.READ` (40_crc R84). -/
def execCrcRead (s : State) : Answer := s.answer (le16 s.crc)

end Sys2Proof.Machine
end

