-- ==== Sys2Proof/Machine/Framer.lean ====
section
/-! DEFINITION. The operations of the packet framer (41_packet R90 to R99). -/

namespace Sys2Proof.Machine

/-- `PKT.ENCODE type, payload` (41_packet R90): the type is checked before the length. -/
def execPktEncode (type : Byte) (payload : Bytes) (s : State) : Answer :=
  match packetTypeOf type with
  | none => s.raise .badType
  | some t =>
    if payload.length > payloadSize then s.raise .payloadSize
    else (s.loadPkt (encodedPacket t payload)).answer []

/-- `PKT.DECODE frame` (41_packet R91): every 19-byte string loads, nothing is checked. -/
def execPktDecode (frame : Bytes) (s : State) : Answer :=
  if frame.length ≠ frameSize then s.raise .frameSize
  else (s.loadPkt (packetOfFrame frame)).answer []

/-- `PKT.RAW` (41_packet R92): the stored CRC, not a recomputed one. -/
def execPktRaw (s : State) : Answer := s.needPkt fun p => s.answer p.frame

/-- `PKT.VALID` (41_packet R93). -/
def execPktValid (s : State) : Answer := s.needPkt fun p => s.answer [flagByte p.isValid]

/-- `PKT.ISOP op` (41_packet R94). -/
def execPktIsop (op : Byte) (s : State) : Answer := s.needPkt fun p => s.answer [flagByte (p.isOperation op)]

/-- `PKT.TYPE` (41_packet R95). -/
def execPktType (s : State) : Answer := s.needPkt fun p => s.answer [(metaType p.metadata).setWidth 8]

/-- `PKT.LEN` (41_packet R96): the declared length, unclipped. -/
def execPktLen (s : State) : Answer := s.needPkt fun p => s.answer [(metaLength p.metadata).setWidth 8]

/-- `PKT.PAYLOAD` (41_packet R97): the count and the meaningful bytes; no slice exists above 16. -/
def execPktPayload (s : State) : Answer :=
  s.needPkt fun p =>
    if (metaLength p.metadata).toNat > payloadSize then s.raise .length
    else s.answer ((metaLength p.metadata).setWidth 8 :: p.payload.take (metaLength p.metadata).toNat)

/-- `PKT.CRC` (41_packet R98): the stored value. -/
def execPktCrc (s : State) : Answer := s.needPkt fun p => s.answer (le16 p.crcf)

/-- `RX.PUSH b` (41_packet R99): whether this byte completed a frame. -/
def execRxPush (b : Byte) (s : State) : Answer :=
  if s.rxcnt < frameSize - 1 then (s.rxStore b).answer [flagByte false]
  else (s.rxComplete b).answer [flagByte true]

end Sys2Proof.Machine
end

