-- ==== Sys2Proof/Machine/Layout.lean ====
section
/-! DEFINITION. The operations of the header and signature layout processor (42_header_signature R113 to R122). None reads
a register or writes one, except `ERR` on an error (10_state R22). -/

namespace Sys2Proof.Machine

/-- `SIG.PACK r, s` (42_header_signature R113). -/
def execSigPack (r t : BitVec Config.wRs) (s : State) : Answer :=
  if r.toNat ≥ 2 ^ (8 * sigIntSize) ∨ t.toNat ≥ 2 ^ (8 * sigIntSize) then s.raise .sigEncoding
  else s.answer (signatureBytes r.toNat t.toNat)

/-- `SIG.UNPACK sig` (42_header_signature R114): the response spells the two numbers as `be(32, r) ‖ be(32, s)`
(30_encoding R62). -/
def execSigUnpack (sig : Bytes) (s : State) : Answer := s.answer (signatureBytes (signatureR sig) (signatureS sig))

/-- `HDR.PACK version, device_id, payload_size, sig` (42_header_signature R115). -/
def execHdrPack (version deviceId size : BitVec 32) (sig : Bytes) (s : State) : Answer :=
  s.answer (Header.pack ⟨version, deviceId, size, sig⟩)

/-- `HDR.PARSE hdr` (42_header_signature R116). -/
def execHdrParse (hdr : Bytes) (s : State) : Answer := s.answer (parseHeader hdr).fields

/-- `IMG.BUILD version, device_id, sig, body` (42_header_signature R119). -/
def execImgBuild (version deviceId : BitVec 32) (sig body : Bytes) (s : State) : Answer :=
  if body.length > bodyMax then s.raise .bodySize
  else s.answer (counted (imageBytes version deviceId sig body))

/-- `IMG.EXTRACT plaintext` (42_header_signature R120). -/
def execImgExtract (plaintext : Bytes) (s : State) : Answer :=
  match extractImage s.strictPad plaintext with
  | none => s.raise .malformedImage
  | some (hdr, body) => s.answer (hdr.fields ++ counted body)

/-- `CONT.JOIN iv, ct` (42_header_signature R121). -/
def execContJoin (iv ct : Bytes) (s : State) : Answer := s.answer (counted (iv ++ ct))

/-- `CONT.SPLIT container` (42_header_signature R122). -/
def execContSplit (container : Bytes) (s : State) : Answer :=
  match splitContainer container with
  | none => s.raise .malformedImage
  | some (iv, ct) => s.answer (iv ++ counted ct)

end Sys2Proof.Machine
end

