-- ==== Sys2Proof/Machine/System.lean ====
section
/-! DEFINITION. The system operations (43_system R130 to R132), and what the port answers to a command that is none. -/

namespace Sys2Proof.Machine

/-- `SYS.RESET` (43_system R130). -/
def execSysReset (s : State) : Answer := s.resetRegisters.answer []

/-- `SYS.STATUS` (43_system R131). -/
def execSysStatus (s : State) : Answer := s.answer (le16 s.status)

/-- `SYS.CLRERR` (43_system R132). -/
def execSysClrerr (s : State) : Answer := { s with err := 0#4 }.answer []

/-- An undefined command code or an ill-formed command: `ERR_BAD_COMMAND`, and nothing changes but `ERR` (30_encoding R75). -/
def badCommand (s : State) : Answer := s.raise .badCommand

end Sys2Proof.Machine
end

