-- ==== Sys2Proof/Machine/OtherRows.lean ====
section
/-! DEFINITION. The nine rows of the opcode table that are packet types and control operation codes, not operations
(30_encoding R79 groups b and c). Such a byte has its place in a frame, where the framer carries it (41_packet); issued as
a command it is an undefined command code (30_encoding R63, R70), and R75 says what the block then does. DEDUCED, safe
(log entry 7). -/

namespace Sys2Proof.Machine

/-- The byte of row `DATA` as a command (30_encoding R75). -/
def execData (_length : BitVec lenBits) (s : State) : Answer := badCommand s

/-- The byte of row `CONTROL` as a command (30_encoding R75). -/
def execControl (_length : BitVec lenBits) (s : State) : Answer := badCommand s

/-- The byte of row `ACK` as a command (30_encoding R75). -/
def execAck (s : State) : Answer := badCommand s

/-- The byte of row `NACK` as a command (30_encoding R75). -/
def execNack (s : State) : Answer := badCommand s

/-- The byte of row `RETX` as a command (30_encoding R75). -/
def execRetx (s : State) : Answer := badCommand s

/-- The byte of row `SYNCED` as a command (30_encoding R75). -/
def execSynced (s : State) : Answer := badCommand s

/-- The byte of row `UPDATE_REQUEST` as a command (30_encoding R75). -/
def execUpdateRequest (s : State) : Answer := badCommand s

/-- The byte of row `FW_SIZE_REQUEST` as a command (30_encoding R75). -/
def execFwSizeRequest (s : State) : Answer := badCommand s

/-- The byte of row `FW_UPDATE_DONE` as a command (30_encoding R75). -/
def execFwUpdateDone (s : State) : Answer := badCommand s

end Sys2Proof.Machine
end

