-- ==== Sys2Proof/Machine/Dispatch.lean ====
section
/-! DEFINITION. One arm per constructor of Instr: the call of its meaning. -/

namespace Sys2Proof.Machine

def exec (i : Instr) (s : State) : Host.Outcome State Fault Refusal :=
  match i with
  -- 43_system
  | .sysReset => Sys2Proof.Machine.execSysReset s
  | .sysStatus => Sys2Proof.Machine.execSysStatus s
  | .sysClrerr => Sys2Proof.Machine.execSysClrerr s
  -- 40_crc
  | .crcInit => Sys2Proof.Machine.execCrcInit s
  | .crcByte b => Sys2Proof.Machine.execCrcByte b s
  | .crcRead => Sys2Proof.Machine.execCrcRead s
  -- 41_packet
  | .pktEncode type payload => Sys2Proof.Machine.execPktEncode type payload s
  | .pktDecode frame => Sys2Proof.Machine.execPktDecode frame s
  | .pktRaw => Sys2Proof.Machine.execPktRaw s
  | .pktValid => Sys2Proof.Machine.execPktValid s
  | .pktIsop op => Sys2Proof.Machine.execPktIsop op s
  | .pktType => Sys2Proof.Machine.execPktType s
  | .pktLen => Sys2Proof.Machine.execPktLen s
  | .pktPayload => Sys2Proof.Machine.execPktPayload s
  | .pktCrc => Sys2Proof.Machine.execPktCrc s
  | .rxPush b => Sys2Proof.Machine.execRxPush b s
  -- 42_header_signature
  | .sigPack r t => Sys2Proof.Machine.execSigPack r t s
  | .sigUnpack sig => Sys2Proof.Machine.execSigUnpack sig s
  | .hdrPack version deviceId size sig => Sys2Proof.Machine.execHdrPack version deviceId size sig s
  | .hdrParse hdr => Sys2Proof.Machine.execHdrParse hdr s
  | .imgBuild version deviceId sig body => Sys2Proof.Machine.execImgBuild version deviceId sig body s
  | .imgExtract plaintext => Sys2Proof.Machine.execImgExtract plaintext s
  | .contJoin iv ct => Sys2Proof.Machine.execContJoin iv ct s
  | .contSplit container => Sys2Proof.Machine.execContSplit container s
  -- 30_encoding R79 groups b and c
  | .data length => Sys2Proof.Machine.execData length s
  | .control length => Sys2Proof.Machine.execControl length s
  | .ack => Sys2Proof.Machine.execAck s
  | .nack => Sys2Proof.Machine.execNack s
  | .retx => Sys2Proof.Machine.execRetx s
  | .synced => Sys2Proof.Machine.execSynced s
  | .updateRequest => Sys2Proof.Machine.execUpdateRequest s
  | .fwSizeRequest => Sys2Proof.Machine.execFwSizeRequest s
  | .fwUpdateDone => Sys2Proof.Machine.execFwUpdateDone s

end Sys2Proof.Machine
end

