-- ==== Sys2Proof/Machine/Step.lean ====
section
/-! DEFINITION. One step: the block takes the next command the host issues and executes it whole (00_scope R5, 20_memory
R42, R43). With no command to take the block does nothing: it starts nothing on its own (00_scope R5). DEDUCED, safe (log
entry 3). -/

namespace Sys2Proof.Machine

/-- One step of the block. -/
def step (s : State) : Host.Outcome State Fault Refusal :=
  match s.takeCommand with
  | none => .next s
  | some (bytes, t) =>
    match decode bytes with
    | .instr i => exec i t
    | .reject _ => badCommand t

/-- `s` with the instruction of a word of spec/opcode_table.json as the next command the host issues (log entry 10). -/
def State.withFetchWord (s : State) (nbits w : Nat) : State :=
  { s with commands := tableWordCommand nbits w :: s.commands }

end Sys2Proof.Machine
end

