-- ==== Sys2Proof/Machine/Pseudo.lean ====
section
/-! DEFINITION. The pseudo-operations of 30_encoding R78: each is shorthand for a sequence of operations and has no command
code of its own. -/

namespace Sys2Proof.Machine

/-- Executing a sequence of operations, each on the state the one before left (20_memory R43). -/
def execAll : List Instr → State → Answer
  | [], s => .next s
  | i :: is, s =>
    match exec i s with
    | .next t => execAll is t
    | .fault f => .fault f
    | .refused r => .refused r

/-- `CRC.BLOCK B`. -/
def crcBlock (bs : Bytes) : List Instr := .crcInit :: (bs.map .crcByte ++ [.crcRead])

/-- `PKT.CONTROL op, B`; with no further bytes, `PKT.CONTROL op`. 30_encoding R78 does not say whether `op` may be a byte
outside the seven codes of R54: here it may be any byte, as for `PKT.ISOP` (R73). DESIGN CHOICE, safe (log entry 13). -/
def pktControl (op : Byte) (more : Bytes) : List Instr := [.pktEncode PacketType.control.code (op :: more)]

/-- `PKT.DATA B`. -/
def pktData (bs : Bytes) : List Instr := [.pktEncode PacketType.data.code bs]

/-- `RX.FRAME F`. -/
def rxFrame (frame : Bytes) : List Instr := frame.map .rxPush

/-- The three answers of `PKT.CLASSIFY`. -/
inductive FrameClass where
  | invalid
  | retxRequest
  | deliver
  deriving DecidableEq, Repr

/-- The truth value an operation answered, if it answered `OK` and one (30_encoding R62). -/
def answeredFlag : Answer → Option Bool
  | .next s => if s.response = [okByte, flagByte true] then some true
      else if s.response = [okByte, flagByte false] then some false else none
  | .fault _ => none
  | .refused _ => none

/-- `PKT.CLASSIFY`: `PKT.VALID`, and if it is true `PKT.ISOP RETX`; the class, and what the last operation executed answered.
30_encoding R78 has no branch for a `PKT.VALID` that ends with `ERR_EMPTY`: here the sequence ends with that error, its code
in `ERR` and in the response, and there is no class. DESIGN CHOICE, safe (log entry 13). -/
def pktClassify (s : State) : Option FrameClass × Answer :=
  let valid := exec .pktValid s
  match valid, answeredFlag valid with
  | .next t, some true =>
    let isRetx := exec (.pktIsop ControlOp.retx.code) t
    ((answeredFlag isRetx).map fun b => if b then .retxRequest else .deliver, isRetx)
  | _, some _ => (some .invalid, valid)
  | _, none => (none, valid)

end Sys2Proof.Machine
end

