-- ==== Sys2Proof/Safety.lean ====
section
/-! DEFINITION. What a legal state is, what a legal response is, and what counts as a safe step. -/

namespace Sys2Proof.Machine

/-- `ERR` holds `OK` or the number of an error; 9..14 are reserved and never appear (60_exceptions R160). -/
abbrev State.ErrLegal (s : State) : Prop := s.err.toNat ≤ 8 ∨ s.err.toNat = 15

/-- The packet register, when loaded, has its 16 payload bytes (10_state R12). -/
abbrev State.PktLegal (s : State) : Prop := ∀ p ∈ s.pkt, p.payload.length = payloadSize

/-- `RXCNT` is in 0..18 (10_state R15). -/
abbrev State.RxLegal (s : State) : Prop := s.rxcnt ≤ frameSize - 1

/-- The invariant of the block's registers. -/
abbrev State.Inv (s : State) : Prop := s.RxLegal ∧ s.PktLegal ∧ s.ErrLegal

/-- The response is none yet, or `OK` and a result, or an error's code alone, which `ERR` then holds too (30_encoding R62,
60_exceptions R166). -/
abbrev State.ResponseLegal (s : State) : Prop :=
  s.response = [] ∨ s.response.head? = some okByte ∨ (s.err ≠ 0#4 ∧ s.response = [s.err.setWidth 8])

/-- An operation of the block is safe in a state: it ends with a next state that is legal (60_exceptions R168: no error is
fatal to the block). -/
def SafeStep (s : State) : Prop := ∃ t, step s = .next t ∧ t.Inv

end Sys2Proof.Machine
end

