-- ==== Sys2Proof/Certificates/Slice0/Obligations.lean ====
section
/-! DEFINITION. The statements for the provers. Each docstring names the rule of spec/ it formalises. In every equation
`exec i s = .next ...` the state on the right is `s` with only the named fields changed, so it is the frame of the
instruction too. -/

namespace Sys2Proof.Spec

open Sys2Proof.Machine

/-- One round of 40_crc R80 on numbers, as its pseudocode has it. -/
def roundOnNumbers (c : Nat) : Nat :=
  if c / 2 ^ 15 % 2 = 1 then ((c * 2) ^^^ 0x1021) &&& 0xFFFF else (c * 2) &&& 0xFFFF

/-- `crc_step(c, b)` of 40_crc R80 on numbers, as its pseudocode has it. -/
def crcStepOnNumbers (c b : Nat) : Nat := roundOnNumbers^[8] ((c ^^^ (b * 256)) &&& 0xFFFF)

/-- `crc16_xmodem(B)` of 40_crc R81 on numbers. -/
def crc16OnNumbers (bs : Bytes) : Nat := bs.foldl (fun c b => crcStepOnNumbers c b.toNat) 0

/-- One bit of the bit-serial form (40_crc R86 item 5). -/
def serialBit (b : Byte) (c : BitVec 16) (k : Nat) : BitVec 16 :=
  if (c.getLsbD 15).xor (b.getLsbD k) then (c <<< 1) ^^^ 0x1021#16 else c <<< 1

/-- The operation ends with `OK` and a result, and writes no register (30_encoding R62). -/
def answers (s : State) (result : Bytes) : Answer := .next { s with response := 0x00#8 :: result }

/-- The operation ends with an error: the code alone, and `ERR` (60_exceptions R166, R167). -/
def fails (s : State) (code : BitVec 4) : Answer := .next { s with err := code, response := [code.setWidth 8] }

/-- A truth value as a result byte (30_encoding R62). -/
def truthByte (b : Bool) : Byte := if b then 1#8 else 0#8

/-- The low and the high byte of a 16-bit number, low first (20_memory R32). -/
def lowHigh (v : BitVec 16) : Bytes := [v.extractLsb' 0 8, v.extractLsb' 8 8]

/-- The number of a byte string, most significant byte first, by Horner's rule (00_scope section 6). -/
def bigEndian (bs : Bytes) : Nat := bs.foldl (fun n b => 256 * n + b.toNat) 0

/-- The byte string with bit `k` of the byte at offset `i` flipped. -/
def flipBit (bs : Bytes) (i k : Nat) : Bytes := bs.set i (bs.getD i 0#8 ^^^ (1#8 <<< k))

/-- The bytes that the operations `CRC.BYTE` of a sequence feed to the unit, in order. -/
def crcBytesOf : List Instr → Bytes
  | [] => []
  | .crcByte b :: is => b :: crcBytesOf is
  | _ :: is => crcBytesOf is

/-- The four queries of 41_packet R100 give the type and the payload back. -/
def recovers (t : State) (type : Byte) (payload : Bytes) : Prop :=
  exec .pktValid t = answers t [1#8] ∧
  exec .pktType t = answers t [type] ∧
  exec .pktPayload t = answers t (BitVec.ofNat 8 payload.length :: payload) ∧
  exec .pktLen t = answers t [BitVec.ofNat 8 payload.length]

/-- The control operation codes as 30_encoding R54 writes them. -/
def controlCodes : List (Byte × ControlOp) :=
  [(0x06#8, .ack), (0x15#8, .nack), (0x18#8, .retx), (0x16#8, .synced), (0x11#8, .updateRequest),
   (0x12#8, .fwSizeRequest), (0x04#8, .fwUpdateDone)]

/-- The 24 command codes (30_encoding R63). -/
def commandCodes : Bytes :=
  [0x80#8, 0x81#8, 0x82#8, 0x90#8, 0x91#8, 0x92#8, 0xA0#8, 0xA1#8, 0xA2#8, 0xA3#8, 0xA4#8, 0xA5#8, 0xA6#8, 0xA7#8,
   0xA8#8, 0xA9#8, 0xB0#8, 0xB1#8, 0xB2#8, 0xB3#8, 0xB4#8, 0xB5#8, 0xB6#8, 0xB7#8]

/-- The operations of the block, as against the nine table rows that are none (30_encoding R79). -/
def isOperation : Instr → Bool
  | .data _ | .control _ | .ack | .nack | .retx | .synced | .updateRequest | .fwSizeRequest | .fwUpdateDone => false
  | _ => true

/-- The operations that never raise an error (60_exceptions R161). -/
def neverRaises : Instr → Bool
  | .sysReset | .sysStatus | .sysClrerr | .crcInit | .crcByte _ | .crcRead | .rxPush _ | .sigUnpack _ | .hdrPack _ _ _ _
  | .hdrParse _ | .contJoin _ _ => true
  | _ => false

/-- The operations that read state and write none, and the layout operations (20_memory R42). -/
def isQuery : Instr → Bool
  | .sysStatus | .crcRead | .pktRaw | .pktValid | .pktIsop _ | .pktType | .pktLen | .pktPayload | .pktCrc => true
  | .sigPack _ _ | .sigUnpack _ | .hdrPack _ _ _ _ | .hdrParse _ | .imgBuild _ _ _ _ | .imgExtract _ | .contJoin _ _
  | .contSplit _ => true
  | _ => false

/-- The operations that write `CRC` (10_state R22). -/
def writesCrc : Instr → Bool
  | .sysReset | .crcInit | .crcByte _ => true
  | _ => false

/-- The operations that read `CRC` (10_state R22). -/
def readsCrc : Instr → Bool
  | .crcByte _ | .crcRead => true
  | _ => false

/-- The operations that write `PKT` and `PKT_LOADED` (10_state R22). -/
def writesPkt : Instr → Bool
  | .sysReset | .pktEncode _ _ | .pktDecode _ | .rxPush _ => true
  | _ => false

/-- The operations that read `PKT` or `PKT_LOADED` (10_state R22). -/
def readsPkt : Instr → Bool
  | .sysStatus | .pktRaw | .pktValid | .pktIsop _ | .pktType | .pktLen | .pktPayload | .pktCrc => true
  | _ => false

/-- The operations that write `RXBUF` and `RXCNT` (10_state R22). -/
def writesRx : Instr → Bool
  | .sysReset | .rxPush _ => true
  | _ => false

/-- The operations that read `RXBUF` or `RXCNT` (10_state R22). -/
def readsRx : Instr → Bool
  | .sysStatus | .rxPush _ => true
  | _ => false

/-- An answer with a change made to its next state. -/
def afterwards (f : State → State) : Answer → Answer
  | .next s => .next (f s)
  | .fault e => .fault e
  | .refused r => .refused r

end Sys2Proof.Spec

open Sys2Proof Sys2Proof.Machine Sys2Proof.Spec

/-! ## Reset and the system operations -/

/-- 10_state R23: the values after reset, and that `PKT` and `RXBUF` hold no value; `SYS.RESET` and power-on are the
same for every register of the block. -/
def Obligations.ResetLeavesTheStatedValues : Prop :=
  State.reset.crc = 0x0000#16 ∧ State.reset.pktLoaded = false ∧ State.reset.pkt = none ∧ State.reset.rxcnt = 0 ∧
  State.reset.rxbuf = [] ∧ State.reset.err = 0#4 ∧
  ∀ s, ∃ t, exec .sysReset s = .next t ∧ t.crc = State.reset.crc ∧ t.pkt = State.reset.pkt ∧
    t.rxbuf = State.reset.rxbuf ∧ t.err = State.reset.err

/-- 43_system R130: what `SYS.RESET` writes, from every state. -/
def Obligations.SysResetClearsEveryRegister : Prop :=
  ∀ s, exec .sysReset s = answers { s with crc := 0x0000#16, pkt := none, rxbuf := [], err := 0#4 } []

/-- 43_system R131 and 10_state R18: `SYS.STATUS` answers a 16-bit view with every field at its place and the reserved
bits 0, low byte first, and changes nothing. -/
def Obligations.SysStatusAnswersTheView : Prop :=
  ∀ s : State, s.Inv → ∃ v : BitVec 16, exec .sysStatus s = answers s (lowHigh v) ∧
    v.toNat = s.rxcnt + 32 * s.pktLoaded.toNat + 256 * s.err.toNat ∧
    (v.extractLsb' 0 5).toNat = s.rxcnt ∧ s.rxcnt ≤ 18 ∧ v.getLsbD 5 = s.pktLoaded ∧ v.extractLsb' 6 2 = 0#2 ∧
    v.extractLsb' 8 4 = s.err ∧ v.extractLsb' 12 4 = 0#4

/-- 43_system R132: `SYS.CLRERR` clears `ERR` and touches nothing else; and no operation's behaviour depends on `ERR`,
other than `SYS.STATUS`: its response and every other register come out the same. -/
def Obligations.SysClrerrClearsErrAndNothingDependsOnIt : Prop :=
  (∀ s, exec .sysClrerr s = answers { s with err := 0#4 } []) ∧
  (∀ (i : Instr) (s : State) (e : BitVec 4), i ≠ .sysStatus →
    afterwards (fun t => { t with err := 0#4 }) (exec i { s with err := e }) =
    afterwards (fun t => { t with err := 0#4 }) (exec i s))

/-! ## The CRC unit -/

/-- 40_crc R82 and R84: `CRC.INIT` writes 0 to `CRC`, and `CRC.READ` answers it, low byte first, and changes nothing. -/
def Obligations.CrcInitZeroesAndCrcReadAnswers : Prop :=
  ∀ s, exec .crcInit s = answers { s with crc := 0x0000#16 } [] ∧ exec .crcRead s = answers s (lowHigh s.crc)

/-- 40_crc R83 with R80: `CRC.BYTE b` leaves in `CRC` the number the pseudocode of `crc_step` computes. -/
def Obligations.CrcByteRunsThePseudocode : Prop :=
  ∀ (b : Byte) (s : State), ∃ c : BitVec 16, exec (.crcByte b) s = answers { s with crc := c } [] ∧
    c.toNat = crcStepOnNumbers s.crc.toNat b.toNat

/-- 40_crc R81: the CRC of a byte string is the left fold of the pseudocode's step, in offset order. -/
def Obligations.CrcOfAStringIsTheFold : Prop :=
  ∀ bs : Bytes, (crc16Xmodem bs).toNat = crc16OnNumbers bs

/-- 40_crc R85 (a law the spec derives): a stream of `CRC.BYTE` from any register value leaves the fold, whatever other
operations stand between, as long as none of them is `CRC.INIT` or a reset; and `CRC.BLOCK` answers `crc16_xmodem`. -/
def Obligations.CrcStreamEqualsTheFunction : Prop :=
  (∀ (is : List Instr) (s t : State), (∀ i ∈ is, i ≠ .crcInit ∧ i ≠ .sysReset) → execAll is s = .next t →
    t.crc = (crcBytesOf is).foldl crcStep s.crc) ∧
  (∀ (bs : Bytes) (s : State), execAll (crcBlock bs) s =
    answers { s with crc := crc16Xmodem bs } (lowHigh (crc16Xmodem bs))) ∧
  (∀ (c : BitVec 16) (xs ys : Bytes), (xs ++ ys).foldl crcStep c = ys.foldl crcStep (xs.foldl crcStep c))

/-- 40_crc R86 item 1 (a law the spec derives): the CRC is linear over XOR. -/
def Obligations.CrcIsLinear : Prop :=
  (∀ (c₁ c₂ : BitVec 16) (b₁ b₂ : Byte), crcStep (c₁ ^^^ c₂) (b₁ ^^^ b₂) = crcStep c₁ b₁ ^^^ crcStep c₂ b₂) ∧
  (∀ xs ys : Bytes, xs.length = ys.length →
    crc16Xmodem (List.zipWith (fun x y => x ^^^ y) xs ys) = crc16Xmodem xs ^^^ crc16Xmodem ys)

/-- 40_crc R86 items 2 and 3 (laws the spec derives): only the XOR of the byte with the high half matters, and zero
bytes in front of a message do not change its CRC. -/
def Obligations.LeadingZerosDoNotChangeTheCrc : Prop :=
  (∀ (c : BitVec 16) (b : Byte), crcStep c b = crcStep (c ^^^ (b.setWidth 16 <<< 8)) 0#8) ∧
  (∀ (k : Nat) (bs : Bytes), crc16Xmodem (List.replicate k 0#8 ++ bs) = crc16Xmodem bs)

/-- 40_crc R86 item 4 (a law the spec derives): `crc_step` is a bijection of the register for each byte. -/
def Obligations.CrcStepIsABijection : Prop :=
  ∀ b : Byte, Function.Bijective (fun c => crcStep c b)

/-- 40_crc R86 item 5 (a law the spec derives): the bit-serial form is equivalent. -/
def Obligations.CrcStepIsBitSerial : Prop :=
  ∀ (c : BitVec 16) (b : Byte), crcStep c b = [7, 6, 5, 4, 3, 2, 1, 0].foldl (serialBit b) c

/-- 40_crc R87 (a law the spec derives): appending the CRC high byte first gives a zero CRC. Appending it in the frame's
order, low byte first, gives a zero CRC exactly where the CRC's two bytes are equal (R87 says "does not give zero" for a valid
frame; the all-zero frame of 95_test_vectors V51 is such a case); the check string gives `0xBAFE`. -/
def Obligations.CrcResidueIsZeroHighByteFirst : Prop :=
  (∀ bs : Bytes, crc16Xmodem (bs ++ [(crc16Xmodem bs).extractLsb' 8 8, (crc16Xmodem bs).extractLsb' 0 8]) = 0x0000#16) ∧
  (∀ bs : Bytes, crc16Xmodem (bs ++ lowHigh (crc16Xmodem bs)) = 0x0000#16 ↔
    (crc16Xmodem bs).extractLsb' 0 8 = (crc16Xmodem bs).extractLsb' 8 8) ∧
  crc16Xmodem [0x31#8, 0x32#8, 0x33#8, 0x34#8, 0x35#8, 0x36#8, 0x37#8, 0x38#8, 0x39#8, 0xC3#8, 0x31#8] = 0xBAFE#16

/-- 40_crc R88 (a law the spec derives): changing one bit of a message changes its CRC; changes of several bits can go
undetected. -/
def Obligations.OneChangedBitChangesTheCrc : Prop :=
  (∀ (bs : Bytes) (i k : Nat), i < bs.length → k < 8 → crc16Xmodem (flipBit bs i k) ≠ crc16Xmodem bs) ∧
  (∃ xs ys : Bytes, xs.length = ys.length ∧ xs ≠ ys ∧ crc16Xmodem xs = crc16Xmodem ys)

/-! ## The packet framer -/

/-- 41_packet R90: `PKT.ENCODE`, its two errors in their order and the packet it loads. -/
def Obligations.PktEncodeLoadsThePacket : Prop :=
  ∀ (type : Byte) (payload : Bytes) (s : State),
    if type ≠ 0#8 ∧ type ≠ 1#8 then exec (.pktEncode type payload) s = fails s 3#4
    else if payload.length > 16 then exec (.pktEncode type payload) s = fails s 2#4
    else ∃ p : Packet, exec (.pktEncode type payload) s = answers { s with pkt := some p } [] ∧
      p.metadata.toNat = type.toNat * 32 + payload.length ∧
      p.payload = payload ++ List.replicate (16 - payload.length) 0xFF#8 ∧
      p.crcf = crc16Xmodem (p.metadata :: p.payload)

/-- 41_packet R91: `PKT.DECODE` loads every 19-byte string, unchecked, and fails on every other length. -/
def Obligations.PktDecodeLoadsEveryFrame : Prop :=
  ∀ (frame : Bytes) (s : State),
    if frame.length ≠ 19 then exec (.pktDecode frame) s = fails s 1#4
    else ∃ p : Packet, exec (.pktDecode frame) s = answers { s with pkt := some p } [] ∧
      frame[0]? = some p.metadata ∧ p.payload.length = 16 ∧
      (∀ i, i < 16 → p.payload[i]? = frame[1 + i]?) ∧
      p.crcf.toNat = (frame.getD 17 0#8).toNat + 256 * (frame.getD 18 0#8).toNat

/-- 41_packet R92: `PKT.RAW` answers the frame with the stored CRC. -/
def Obligations.PktRawAnswersTheFrame : Prop :=
  ∀ s : State, match s.pkt with
    | none => exec .pktRaw s = fails s 4#4
    | some p => exec .pktRaw s = answers s (p.metadata :: p.payload ++ lowHigh p.crcf)

/-- 41_packet R93: `PKT.VALID` answers false on a declared length above 16 and on a stored CRC that is not the
recomputed one, true otherwise, and never writes `ERR` for a false answer. -/
def Obligations.PktValidChecksLengthAndCrc : Prop :=
  ∀ s : State, match s.pkt with
    | none => exec .pktValid s = fails s 4#4
    | some p => exec .pktValid s = answers s [truthByte
        (decide (p.metadata.toNat % 32 ≤ 16 ∧ p.crcf.toNat = crc16OnNumbers (p.metadata :: p.payload)))]

/-- 41_packet R94: `PKT.ISOP op` answers whether the type is CONTROL and `payload[0]` is `op`, whatever the length or
the CRC. -/
def Obligations.PktIsopComparesTheFirstPayloadByte : Prop :=
  ∀ (op : Byte) (s : State), s.PktLegal → match s.pkt with
    | none => exec (.pktIsop op) s = fails s 4#4
    | some p => exec (.pktIsop op) s = answers s [truthByte
        (decide (p.metadata.toNat / 32 = 1 ∧ p.payload[0]? = some op))]

/-- 41_packet R95 and R96: `PKT.TYPE` and `PKT.LEN` answer the two fields of the metadata byte as they are. -/
def Obligations.PktTypeAndLenAnswerTheMetadataFields : Prop :=
  ∀ s : State, match s.pkt with
    | none => exec .pktType s = fails s 4#4 ∧ exec .pktLen s = fails s 4#4
    | some p => exec .pktType s = answers s [BitVec.ofNat 8 (p.metadata.toNat / 32)] ∧
        exec .pktLen s = answers s [BitVec.ofNat 8 (p.metadata.toNat % 32)]

/-- 41_packet R97: `PKT.PAYLOAD` answers exactly the meaningful bytes, and fails where the declared length is above 16.
-/
def Obligations.PktPayloadAnswersTheMeaningfulBytes : Prop :=
  ∀ s : State, s.PktLegal → match s.pkt with
    | none => exec .pktPayload s = fails s 4#4
    | some p =>
      if p.metadata.toNat % 32 > 16 then exec .pktPayload s = fails s 5#4
      else ∃ bs : Bytes, exec .pktPayload s = answers s (BitVec.ofNat 8 bs.length :: bs) ∧
        bs.length = p.metadata.toNat % 32 ∧ bs <+: p.payload

/-- 41_packet R98: `PKT.CRC` answers the stored CRC. -/
def Obligations.PktCrcAnswersTheStoredCrc : Prop :=
  ∀ s : State, match s.pkt with
    | none => exec .pktCrc s = fails s 4#4
    | some p => exec .pktCrc s = answers s (lowHigh p.crcf)

/-- 41_packet R99: `RX.PUSH b` stores the byte and answers false while `RXCNT < 18`; at 18 it loads the 19 bytes as a
packet, empties the accumulator and answers true. -/
def Obligations.RxPushCutsTheStreamAtNineteen : Prop :=
  ∀ (b : Byte) (s : State), s.RxLegal →
    if s.rxcnt < 18 then exec (.rxPush b) s = answers { s with rxbuf := s.rxbuf ++ [b] } [0#8]
    else ∃ p : Packet, exec (.rxPush b) s = answers { s with pkt := some p, rxbuf := [] } [1#8] ∧
      s.rxbuf[0]? = some p.metadata ∧ p.payload.length = 16 ∧ (∀ i, i < 16 → p.payload[i]? = s.rxbuf[1 + i]?) ∧
      p.crcf.toNat = (s.rxbuf.getD 17 0#8).toNat + 256 * b.toNat

/-- 30_encoding R78, 41_packet R99: `RX.FRAME F` from an empty accumulator loads the same packet as `PKT.DECODE F` and
leaves everything else as it was. -/
def Obligations.RxFrameLoadsWhatDecodeLoads : Prop :=
  ∀ (frame : Bytes) (s : State), frame.length = 19 → s.rxbuf = [] → ∃ p : Packet,
    exec (.pktDecode frame) s = answers { s with pkt := some p } [] ∧
    execAll (rxFrame frame) s = answers { s with pkt := some p } [1#8]

/-- 10_state R15, 70_reset R183: framing is purely positional: after any bytes pushed, `RXCNT` is the count modulo 19,
and the bytes of the incomplete frame are the last ones pushed. -/
def Obligations.RxFramingIsPositional : Prop :=
  ∀ (bs : Bytes) (s : State), s.RxLegal → ∃ t, execAll (bs.map .rxPush) s = .next t ∧
    t.rxcnt = (s.rxcnt + bs.length) % 19 ∧ t.rxbuf <:+ s.rxbuf ++ bs ∧
    t.crc = s.crc ∧ t.err = s.err ∧ t.strictPad = s.strictPad ∧ t.commands = s.commands

/-- 41_packet R100 (a law the spec derives): the packet round trip, directly, through `PKT.RAW` and `PKT.DECODE`, and
through `RX.PUSH`. -/
def Obligations.PacketRoundTrip : Prop :=
  ∀ (type : Byte) (payload : Bytes) (s : State), (type = 0#8 ∨ type = 1#8) → payload.length ≤ 16 →
    ∃ (t : State) (frame : Bytes), exec (.pktEncode type payload) s = .next t ∧ recovers t type payload ∧
      exec .pktRaw t = answers t frame ∧ frame.length = 19 ∧
      (∀ u, ∃ v, exec (.pktDecode frame) u = .next v ∧ recovers v type payload) ∧
      (∀ u, u.rxbuf = [] → ∃ v, execAll (rxFrame frame) u = .next v ∧ recovers v type payload)

/-- 41_packet R101 (a law the spec derives): flipping exactly one of the 152 bits of a valid frame makes it invalid. -/
def Obligations.SingleBitCorruptionIsDetected : Prop :=
  ∀ (frame : Bytes) (s t : State) (i k : Nat), frame.length = 19 → exec (.pktDecode frame) s = .next t →
    exec .pktValid t = answers t [1#8] → i < 19 → k < 8 →
    ∃ u, exec (.pktDecode (flipBit frame i k)) s = .next u ∧ exec .pktValid u = answers u [0#8]

/-- 41_packet R102 (a law the spec derives): decode and raw are inverse, both ways. -/
def Obligations.DecodeAndRawAreInverse : Prop :=
  (∀ (frame : Bytes) (s : State), frame.length = 19 →
    ∃ t, exec (.pktDecode frame) s = .next t ∧ exec .pktRaw t = answers t frame) ∧
  (∀ (s : State), s.PktLegal → s.pkt.isSome →
    ∃ frame, exec .pktRaw s = answers s frame ∧ exec (.pktDecode frame) s = answers s [])

/-- 41_packet R103 (a law the spec derives): what a frame made by `PKT.ENCODE` looks like, and that a valid frame need
not look so. -/
def Obligations.EncodedFramesHaveTheirShape : Prop :=
  (∀ (type : Byte) (payload : Bytes) (s t : State) (frame : Bytes), exec (.pktEncode type payload) s = answers t [] →
    exec .pktRaw t = answers t frame →
    ((frame.getD 0 0#8).toNat ≤ 0x10 ∨ (0x20 ≤ (frame.getD 0 0#8).toNat ∧ (frame.getD 0 0#8).toNat ≤ 0x30)) ∧
    (∀ i, (frame.getD 0 0#8).toNat % 32 ≤ i → i < 16 → frame[1 + i]? = some 0xFF#8) ∧
    (frame.getD 17 0#8).toNat + 256 * (frame.getD 18 0#8).toNat = (crc16Xmodem (frame.take 17)).toNat) ∧
  (∃ p : Packet, p.isValid ∧ p.metadata.toNat / 32 = 5 ∧ p.payload.length = 16) ∧
  (∃ p : Packet, p.isValid ∧ p.metadata.toNat % 32 = 1 ∧ p.payload.length = 16 ∧ p.payload[1]? = some 0x00#8)

/-- 30_encoding R52, R54, R78, 41_packet R94: the seven codes of R54. A packet built by `PKT.CONTROL` of any byte (log entry
13) is the CONTROL packet with that byte at `payload[0]`, matches the row CONTROL and the row of that code, if R54 has one,
and answers true to `PKT.ISOP` for that byte alone; a packet built by `PKT.DATA` is a DATA packet and answers false to every
byte. -/
def Obligations.ControlAndDataPacketsAreTheirRows : Prop :=
  [ControlOp.ack.code, ControlOp.nack.code, ControlOp.retx.code, ControlOp.synced.code, ControlOp.updateRequest.code,
    ControlOp.fwSizeRequest.code, ControlOp.fwUpdateDone.code] =
    [0x06#8, 0x15#8, 0x18#8, 0x16#8, 0x11#8, 0x12#8, 0x04#8] ∧
  (∀ (op : Byte) (more : Bytes) (s : State), more.length ≤ 15 → ∃ (p : Packet) (t : State),
    execAll (pktControl op more) s = .next t ∧ t.pkt = some p ∧ p.metadata.toNat = 0x20 + 1 + more.length ∧
    p.payload = op :: more ++ List.replicate (15 - more.length) 0xFF#8 ∧
    p.frameRows = (some .control, controlCodes.lookup op) ∧
    p.isValid ∧ ∀ b : Byte, exec (.pktIsop b) t = answers t [truthByte (decide (b = op))]) ∧
  (∀ (bs : Bytes) (s : State), bs.length ≤ 16 → ∃ (p : Packet) (t : State),
    execAll (pktData bs) s = .next t ∧ t.pkt = some p ∧ p.metadata.toNat = bs.length ∧
    p.payload = bs ++ List.replicate (16 - bs.length) 0xFF#8 ∧ p.frameRows = (some .data, none) ∧
    p.isValid ∧ ∀ b : Byte, exec (.pktIsop b) t = answers t [0#8])

/-- 30_encoding R78, 44_host_boundary R146: `PKT.CLASSIFY` sorts a loaded packet three ways and writes no register; with no
packet it ends as `PKT.VALID` does and gives no class, which is the model's choice (log entry 13). -/
def Obligations.ClassifySortsThreeWays : Prop :=
  ∀ s : State, match s.pkt with
    | none => pktClassify s = (none, fails s 4#4)
    | some p => pktClassify s =
      if p.metadata.toNat % 32 > 16 ∨ p.crcf ≠ crc16Xmodem (p.metadata :: p.payload) then (some .invalid, answers s [0#8])
      else if p.metadata.toNat / 32 = 1 ∧ p.payload.headD 0#8 = 0x18#8 then (some .retxRequest, answers s [1#8])
      else (some .deliver, answers s [0#8])

/-! ## The layout processor -/

/-- 20_memory R46 (laws the spec derives): the conversions between integers and byte strings are inverse both ways. -/
def Obligations.ByteConversionsAreInverse : Prop :=
  (∀ v : BitVec 32, unle (le32 v) = v.toNat) ∧ (∀ v : BitVec 16, unle (le16 v) = v.toNat) ∧
  (∀ bs : Bytes, bs.length = 4 → le32 (BitVec.ofNat 32 (unle bs)) = bs) ∧
  (∀ bs : Bytes, bs.length = 2 → le16 (BitVec.ofNat 16 (unle bs)) = bs) ∧
  (∀ v, v < 2 ^ 256 → unbe (beBytes 32 v) = v) ∧
  (∀ bs : Bytes, bs.length = 32 → beBytes 32 (unbe bs) = bs ∧ unbe bs < 2 ^ 256 ∧ unbe bs = bigEndian bs)

/-- 42_header_signature R113: `SIG.PACK` fails where an integer needs more than 32 bytes and otherwise answers the 64
bytes, each integer big-endian. -/
def Obligations.SigPackWritesBigEndian : Prop :=
  ∀ (r t : BitVec 264) (s : State),
    if r.toNat ≥ 2 ^ 256 ∨ t.toNat ≥ 2 ^ 256 then exec (.sigPack r t) s = fails s 6#4
    else ∃ sig : Bytes, exec (.sigPack r t) s = answers s sig ∧ sig.length = 64 ∧
      (∀ i, i < 32 → sig[i]? = some (BitVec.ofNat 8 (r.toNat / 256 ^ (31 - i)))) ∧
      (∀ i, i < 32 → sig[32 + i]? = some (BitVec.ofNat 8 (t.toNat / 256 ^ (31 - i))))

/-- 42_header_signature R114: `SIG.UNPACK` reads two 256-bit big-endian numbers, and pack and unpack are inverse. -/
def Obligations.SigUnpackReadsBigEndian : Prop :=
  (∀ (sig : Bytes) (s : State), sig.length = 64 →
    signatureR sig = bigEndian (sig.take 32) ∧ signatureS sig = bigEndian (sig.drop 32) ∧
    signatureR sig < 2 ^ 256 ∧ signatureS sig < 2 ^ 256 ∧ exec (.sigUnpack sig) s = answers s sig ∧
    exec (.sigPack (BitVec.ofNat 264 (signatureR sig)) (BitVec.ofNat 264 (signatureS sig))) s = answers s sig) ∧
  (∀ (r t : BitVec 264) (s : State) (sig : Bytes), exec (.sigPack r t) s = answers s sig →
    signatureR sig = r.toNat ∧ signatureS sig = t.toNat)

/-- 42_header_signature R115: the 128 bytes `HDR.PACK` answers, field by field. -/
def Obligations.HdrPackLaysOutTheFields : Prop :=
  ∀ (version deviceId size : BitVec 32) (sig : Bytes) (s : State), sig.length = 64 → ∃ hdr : Bytes,
    exec (.hdrPack version deviceId size sig) s = answers s hdr ∧ hdr.length = 128 ∧
    (∀ i, i < 4 → hdr[i]? = some (version.extractLsb' (8 * i) 8)) ∧
    (∀ i, i < 4 → hdr[4 + i]? = some (deviceId.extractLsb' (8 * i) 8)) ∧
    (∀ i, i < 4 → hdr[8 + i]? = some (size.extractLsb' (8 * i) 8)) ∧
    (∀ i, i < 64 → hdr[12 + i]? = sig[i]?) ∧ (∀ i, i < 52 → hdr[76 + i]? = some 0xFF#8)

/-- 42_header_signature R116: `HDR.PARSE` answers the three numbers and the signature and does not read the reserved
bytes; packing the parsed fields gives the header back exactly when the reserved bytes are all `0xFF`, and parsing a
packed header gives its fields back. -/
def Obligations.HdrParseReadsTheFields : Prop :=
  (∀ (hdr : Bytes) (s : State), hdr.length = 128 → ∃ (version deviceId size : BitVec 32) (sig : Bytes),
    exec (.hdrParse hdr) s = answers s (le32 version ++ le32 deviceId ++ le32 size ++ sig) ∧
    version.toNat = unle (hdr.take 4) ∧ deviceId.toNat = unle ((hdr.drop 4).take 4) ∧
    size.toNat = unle ((hdr.drop 8).take 4) ∧ sig = (hdr.drop 12).take 64 ∧
    (exec (.hdrPack version deviceId size sig) s = answers s hdr ↔ ∀ i, 76 ≤ i → i < 128 → hdr[i]? = some 0xFF#8)) ∧
  (∀ (version deviceId size : BitVec 32) (sig : Bytes) (s : State), sig.length = 64 → ∃ hdr : Bytes,
    exec (.hdrPack version deviceId size sig) s = answers s hdr ∧
    exec (.hdrParse hdr) s = answers s (le32 version ++ le32 deviceId ++ le32 size ++ sig))

/-- 42_header_signature R117 (a law the spec derives): the header and the signature round trip. -/
def Obligations.HeaderAndSignatureRoundTrip : Prop :=
  ∀ (version deviceId size : BitVec 32) (r t : BitVec 264) (s : State), r.toNat < 2 ^ 256 → t.toNat < 2 ^ 256 →
    ∃ sig hdr : Bytes, exec (.sigPack r t) s = answers s sig ∧
      exec (.hdrPack version deviceId size sig) s = answers s hdr ∧
      exec (.hdrParse hdr) s = answers s (le32 version ++ le32 deviceId ++ le32 size ++ sig) ∧
      parseHeader hdr = ⟨version, deviceId, size, sig⟩ ∧
      exec (.sigUnpack sig) s = answers s (beBytes 32 r.toNat ++ beBytes 32 t.toNat) ∧
      signatureR sig = r.toNat ∧ signatureS sig = t.toNat

/-- 42_header_signature R119 with R118 (the pad is general knowledge, log entry 11): `IMG.BUILD` fails on a body above
`2^32 - 1` bytes and otherwise answers the padded image, `payload_size` being the unpadded length. -/
def Obligations.ImgBuildLaysOutTheImage : Prop :=
  ∀ (version deviceId : BitVec 32) (sig body : Bytes) (s : State), sig.length = 64 →
    if body.length > 2 ^ 32 - 1 then exec (.imgBuild version deviceId sig body) s = fails s 8#4
    else ∃ plaintext : Bytes,
      exec (.imgBuild version deviceId sig body) s = answers s (leBytes 8 plaintext.length ++ plaintext) ∧
      plaintext = le32 version ++ le32 deviceId ++ leBytes 4 body.length ++ sig ++ List.replicate 52 0xFF#8 ++ body ++
        List.replicate (16 - body.length % 16) (BitVec.ofNat 8 (16 - body.length % 16)) ∧
      plaintext.length = 128 + 16 * (body.length / 16 + 1) ∧ plaintext.length % 16 = 0

/-- 42_header_signature R120: `IMG.EXTRACT`, its checks in their order, for both values of `STRICT_PAD`, and the fields
and body it answers. -/
def Obligations.ImgExtractChecksTheBounds : Prop :=
  ∀ (plaintext : Bytes) (s : State),
    let size := unle ((plaintext.drop 8).take 4)
    if plaintext.length < 128 then exec (.imgExtract plaintext) s = fails s 7#4
    else if 128 + size > plaintext.length then exec (.imgExtract plaintext) s = fails s 7#4
    else if s.strictPad = true ∧ plaintext.length ≠ 128 + size + (16 - size % 16) then
      exec (.imgExtract plaintext) s = fails s 7#4
    else exec (.imgExtract plaintext) s =
      answers s (plaintext.take 76 ++ leBytes 8 size ++ (plaintext.drop 128).take size)

/-- 42_header_signature R121: `CONT.JOIN` answers the IV and the ciphertext behind their length; where the length is
2^64 or more the spec states no prefix, and the statement holds whatever 8 bytes stand there (log entry 9). -/
def Obligations.ContJoinPutsTheIvInFront : Prop :=
  ∀ (iv ct : Bytes) (s : State), iv.length = 16 → ∃ pre : Bytes,
    exec (.contJoin iv ct) s = answers s (pre ++ iv ++ ct) ∧ pre.length = 8 ∧
    (16 + ct.length < 2 ^ 64 → unle pre = 16 + ct.length)

/-- 42_header_signature R122: `CONT.SPLIT` fails without a whole IV or whole blocks, otherwise answers the IV and the
ciphertext, and takes apart what `CONT.JOIN` put together. -/
def Obligations.ContSplitTakesTheIvOff : Prop :=
  (∀ (container : Bytes) (s : State), container.length < 2 ^ 64 →
    if container.length < 16 ∨ (container.length - 16) % 16 ≠ 0 then exec (.contSplit container) s = fails s 7#4
    else exec (.contSplit container) s =
      answers s (container.take 16 ++ leBytes 8 (container.length - 16) ++ container.drop 16)) ∧
  (∀ (iv ct : Bytes) (s : State), iv.length = 16 → ct.length % 16 = 0 → ct.length < 2 ^ 64 →
    exec (.contSplit (iv ++ ct)) s = answers s (iv ++ leBytes 8 ct.length ++ ct))

/-- 42_header_signature R123 (a law the spec derives; the pad is R118's general knowledge, log entry 11): the image
round trip, with `STRICT_PAD` true or false, and the container's length. -/
def Obligations.ImageRoundTrip : Prop :=
  ∀ (version deviceId : BitVec 32) (sig body : Bytes) (s : State), sig.length = 64 → body.length ≤ 2 ^ 32 - 1 →
    ∃ plaintext : Bytes,
      exec (.imgBuild version deviceId sig body) s = answers s (leBytes 8 plaintext.length ++ plaintext) ∧
      (∀ strict : Bool, exec (.imgExtract plaintext) { s with strictPad := strict } =
        answers { s with strictPad := strict } (le32 version ++ le32 deviceId ++ leBytes 4 body.length ++ sig ++
          leBytes 8 body.length ++ body)) ∧
      (∀ iv ct : Bytes, iv.length = 16 → ct.length = plaintext.length →
        exec (.contJoin iv ct) s = answers s (leBytes 8 (iv ++ ct).length ++ (iv ++ ct)) ∧
        (iv ++ ct).length = 16 + 128 + 16 * (body.length / 16 + 1))

/-! ## The whole machine -/

/-- 30_encoding R75, log entry 7: a table row's byte that is no command code, issued as a command, ends with
`ERR_BAD_COMMAND` and changes nothing else. -/
def Obligations.OtherRowsAreNoCommands : Prop :=
  ∀ (length : BitVec 5) (s : State),
    ∀ i ∈ [Instr.data length, .control length, .ack, .nack, .retx, .synced, .updateRequest, .fwSizeRequest,
      .fwUpdateDone], exec i s = fails s 15#4

/-- 30_encoding R75: a command whose code is none of the 24, a command with a byte too many and a command cut short all end
with `ERR_BAD_COMMAND` and change nothing else. The command of no bytes is `Obligations.EmptyCommandIsIllFormed`. -/
def Obligations.BadCommandsChangeErrAlone : Prop :=
  ∀ (s : State) (rest : List Bytes),
    (∀ (code : Byte) (ops : Bytes), code ∉ commandCodes → s.commands = (code :: ops) :: rest →
      step s = fails { s with commands := rest } 15#4) ∧
    (∀ (i : Instr) (extra : Bytes), isOperation i → i.WellFormed → extra ≠ [] →
      s.commands = (encode i ++ extra) :: rest → step s = fails { s with commands := rest } 15#4) ∧
    (∀ (i : Instr) (k : Nat), isOperation i → i.WellFormed → 0 < k → k < (encode i).length →
      s.commands = (encode i).take k :: rest → step s = fails { s with commands := rest } 15#4)

/-- Log entry 8 (the model's choice, DEDUCED from 30_encoding R61 and R75, which do not name it): a command of no bytes is
taken as one too short for any format, and ends with `ERR_BAD_COMMAND`. -/
def Obligations.EmptyCommandIsIllFormed : Prop :=
  ∀ (s : State) (rest : List Bytes), s.commands = [] :: rest → step s = fails { s with commands := rest } 15#4

/-- 20_memory R43, 00_scope R5, 30_encoding R75: a step takes the next command and is `exec` of the instruction it decodes
to; a command that decodes to none is answered `ERR_BAD_COMMAND` (the empty command by log entry 8); with no command the block
does nothing (log entry 3). -/
def Obligations.StepRunsTheDecodedCommand : Prop :=
  ∀ s : State,
    (∀ (bytes : Bytes) (rest : List Bytes) (i : Instr), s.commands = bytes :: rest → decode bytes = .instr i →
      step s = exec i { s with commands := rest }) ∧
    (∀ (bytes : Bytes) (rest : List Bytes) (r : Reject), s.commands = bytes :: rest → decode bytes = .reject r →
      step s = fails { s with commands := rest } 15#4) ∧
    (s.commands = [] → step s = .next s)

/-- 20_memory R43: the state after a sequence of commands is the left-to-right composition of their operations. -/
def Obligations.CommandsRunInTheOrderIssued : Prop :=
  ∀ (is : List Instr) (s : State), (∀ i ∈ is, i.WellFormed) →
    core.run is.length { s with commands := is.map encode } = execAll is { s with commands := [] }

/-- 60_exceptions R167 with R166: an operation that ends in an error writes no register but `ERR`, and its response is
the code alone. -/
def Obligations.ErrorsLeaveTheStateAlone : Prop :=
  ∀ (i : Instr) (s t : State), exec i s = .next t → t.response.head? ≠ some 0x00#8 →
    ∃ code : BitVec 4, code ≠ 0#4 ∧ exec i s = fails s code

/-- 10_state R17: a successful operation does not change `ERR` (but for the two that clear it), and a failing one leaves
its code there. -/
def Obligations.ErrHoldsTheLastError : Prop :=
  ∀ (i : Instr) (s t : State), exec i s = .next t →
    (t.response.head? = some 0x00#8 → t.err = if i = .sysReset ∨ i = .sysClrerr then 0#4 else s.err) ∧
    (t.response.head? ≠ some 0x00#8 → t.response = [t.err.setWidth 8] ∧ t.err ≠ 0#4)

/-- 60_exceptions R161 (which the spec derives): the operations that never raise an error answer `OK` in every state. -/
def Obligations.TheseOperationsNeverRaise : Prop :=
  ∀ (i : Instr) (s : State), neverRaises i → ∃ t result, exec i s = .next t ∧ t.response = 0x00#8 :: result

/-- 60_exceptions R168, 30_encoding R62: every instruction in every state ends with a response: `OK` and a result, or an
error's code alone, which `ERR` then holds. -/
def Obligations.EveryInstructionAnswers : Prop :=
  ∀ (i : Instr) (s : State), ∃ t, exec i s = .next t ∧ t.response ≠ [] ∧ t.ResponseLegal

/-- 20_memory R42: an operation that only reads, and a layout operation, may be repeated with the same answer and changes no
register when it succeeds, and none but `ERR` on an error. -/
def Obligations.QueriesMayBeRepeated : Prop :=
  ∀ (i : Instr) (s t : State), isQuery i → exec i s = .next t →
    exec i t = .next t ∧ t = { s with err := t.err, response := t.response } ∧
    (t.response.head? = some 0x00#8 → t.err = s.err)

/-- 10_state R22 (which the spec derives): which registers an operation leaves as they were. That none writes `STRICT_PAD`
or the host's commands is from 10_state R14 and R24; that these two are fields of the state at all is the model's choice (log
entries 6 and 1). -/
def Obligations.OperationsWriteOnlyTheirRegisters : Prop :=
  ∀ (i : Instr) (s t : State), exec i s = .next t →
    (writesCrc i = false → t.crc = s.crc) ∧ (writesPkt i = false → t.pkt = s.pkt) ∧
    (writesRx i = false → t.rxbuf = s.rxbuf) ∧ t.strictPad = s.strictPad ∧ t.commands = s.commands

/-- 10_state R22 (which the spec derives): an operation that does not read a register acts the same whatever that
register holds. -/
def Obligations.OperationsReadOnlyTheirRegisters : Prop :=
  ∀ (i : Instr) (s : State),
    (∀ c, readsCrc i = false → writesCrc i = false →
      exec i { s with crc := c } = afterwards (fun t => { t with crc := c }) (exec i s)) ∧
    (∀ p, readsPkt i = false → writesPkt i = false →
      exec i { s with pkt := p } = afterwards (fun t => { t with pkt := p }) (exec i s)) ∧
    (∀ b, readsRx i = false → writesRx i = false →
      exec i { s with rxbuf := b } = afterwards (fun t => { t with rxbuf := b }) (exec i s))

/-- The block's registers are legal in the reset state (10_state R23, 60_exceptions R160), and the response, empty before
the first command by the model's choice (log entry 2), is legal too. -/
def Obligations.ResetIsLegal : Prop := State.reset.Inv ∧ State.reset.ResponseLegal

/-- 10_state R12, R15, 60_exceptions R160: from every legal state a step ends in a next state, and that state is legal.
-/
def Obligations.EveryStepKeepsTheStateLegal : Prop :=
  ∀ s : State, s.Inv → ∃ t, step s = .next t ∧ t.Inv

/-! ## Encoding -/

/-- The words of all 33 rows of the opcode table, with zero operand bytes (log entry 10), decode to their rows'
instructions (30_encoding R63, R52, R54; the nine last rows by log entry 7). -/
def Obligations.TableWordsDecode : Prop :=
  ([0x80, 0x81, 0x82, 0x90, 0x91, 0x92, 0xA0, 0xA1, 0xA2, 0xA3, 0xA4, 0xA5, 0xA6, 0xA7, 0xA8, 0xA9].map
    (decodeTableWord 8)) = [Instr.sysReset, .sysStatus, .sysClrerr, .crcInit, .crcByte 0#8, .crcRead, .pktEncode 0#8 [],
      .pktDecode [], .pktRaw, .pktValid, .pktIsop 0#8, .pktType, .pktLen, .pktPayload, .pktCrc, .rxPush 0#8].map some ∧
  ([0xB0, 0xB1, 0xB2, 0xB3, 0xB4, 0xB5, 0xB6, 0xB7].map (decodeTableWord 8)) =
    [Instr.sigPack 0 0, .sigUnpack (List.replicate 64 0#8), .hdrPack 0 0 0 (List.replicate 64 0#8),
      .hdrParse (List.replicate 128 0#8), .imgBuild 0 0 (List.replicate 64 0#8) [], .imgExtract [],
      .contJoin (List.replicate 16 0#8) [], .contSplit []].map some ∧
  ([0x00, 0x20, 0x06, 0x15, 0x18, 0x16, 0x11, 0x12, 0x04].map (decodeTableWord 8)) =
    [Instr.data 0#5, .control 0#5, .ack, .nack, .retx, .synced, .updateRequest, .fwSizeRequest, .fwUpdateDone].map some

/-- 30_encoding R61, R63: each of the 24 command codes with the operand bytes its format lays out is read as its
operation with those operands. -/
def Obligations.CommandsAreReadByTheirFormats : Prop :=
  ([0x80#8, 0x81#8, 0x82#8, 0x90#8, 0x92#8, 0xA2#8, 0xA3#8, 0xA5#8, 0xA6#8, 0xA7#8, 0xA8#8].map (fun c => decode [c]) =
    [Instr.sysReset, .sysStatus, .sysClrerr, .crcInit, .crcRead, .pktRaw, .pktValid, .pktType, .pktLen, .pktPayload,
      .pktCrc].map .instr) ∧
  (∀ b : Byte, decode [0x91#8, b] = .instr (.crcByte b) ∧ decode [0xA4#8, b] = .instr (.pktIsop b) ∧
    decode [0xA9#8, b] = .instr (.rxPush b)) ∧
  (∀ bs : Bytes, bs.length < 2 ^ 64 →
    (∀ type : Byte, decode (0xA0#8 :: type :: (leBytes 8 bs.length ++ bs)) = .instr (.pktEncode type bs)) ∧
    decode (0xA1#8 :: (leBytes 8 bs.length ++ bs)) = .instr (.pktDecode bs) ∧
    decode (0xB5#8 :: (leBytes 8 bs.length ++ bs)) = .instr (.imgExtract bs) ∧
    decode (0xB7#8 :: (leBytes 8 bs.length ++ bs)) = .instr (.contSplit bs) ∧
    (∀ iv : Bytes, iv.length = 16 → decode (0xB6#8 :: (iv ++ leBytes 8 bs.length ++ bs)) = .instr (.contJoin iv bs)) ∧
    (∀ (version deviceId : BitVec 32) (sig : Bytes), sig.length = 64 →
      decode (0xB4#8 :: (le32 version ++ le32 deviceId ++ sig ++ leBytes 8 bs.length ++ bs)) =
        .instr (.imgBuild version deviceId sig bs))) ∧
  (∀ r t : BitVec 264, decode (0xB0#8 :: (beBytes 33 r.toNat ++ beBytes 33 t.toNat)) = .instr (.sigPack r t)) ∧
  (∀ sig : Bytes, sig.length = 64 → decode (0xB1#8 :: sig) = .instr (.sigUnpack sig) ∧
    (∀ version deviceId size : BitVec 32, decode (0xB2#8 :: (le32 version ++ le32 deviceId ++ le32 size ++ sig)) =
      .instr (.hdrPack version deviceId size sig))) ∧
  (∀ hdr : Bytes, hdr.length = 128 → decode (0xB3#8 :: hdr) = .instr (.hdrParse hdr)) ∧
  (∀ (code : Byte) (ops : Bytes) (i : Instr), code ∉ commandCodes → decode (code :: ops) = .instr i →
    isOperation i = false) ∧
  (∀ (bytes more : Bytes) (i j : Instr), decode bytes = .instr i → decode (bytes ++ more) = .instr j → more = [])

/-- 30_encoding R61, R63: decoding the encoding of any well-formed instruction gives it back, every operand included. -/
def Obligations.DecodeOfEncodeIsTheInstruction : Prop :=
  ∀ i : Instr, i.WellFormed → decode (encode i) = .instr i

/-- 30_encoding R61: every byte string that decodes is the encoding of what it decodes to, which is well formed; so a
command is well formed exactly when its total length is what its format requires. -/
def Obligations.DecodedBytesAreTheEncoding : Prop :=
  ∀ (bytes : Bytes) (i : Instr), decode bytes = .instr i → encode i = bytes ∧ i.WellFormed
end

