-- ==== Sys2Proof/Laws/Bytes.lean ====
section
/-! SUPPORT. Lengths and bounds of byte strings and their numbers. -/

namespace Sys2Proof.Machine

@[simp] theorem leBytes_length (k v : Nat) : (leBytes k v).length = k := by
  induction k generalizing v with
  | zero => rfl
  | succ k ih => simp [leBytes, ih]

@[simp] theorem beBytes_length (k v : Nat) : (beBytes k v).length = k := by simp [beBytes]

@[simp] theorem le16_length (v : BitVec 16) : (le16 v).length = 2 := leBytes_length 2 _

@[simp] theorem le32_length (v : BitVec 32) : (le32 v).length = 4 := leBytes_length 4 _

@[simp] theorem lengthPrefix_length (n : Nat) : (lengthPrefix n).length = 8 := leBytes_length 8 _

/-- Below 2^64 the length prefix is `le64(n)`; no value is known of it otherwise. -/
theorem lengthPrefix_eq {n : Nat} (h : n < 2 ^ 64) : lengthPrefix n = leBytes 8 n := by
  simp only [lengthPrefix, lenPrefixSize, Nat.reduceMul]
  rw [if_pos h]

/-- The number of a byte string is below 256 to its length. -/
theorem unle_lt (bs : Bytes) : unle bs < 256 ^ bs.length := by
  induction bs with
  | nil => simp [unle]
  | cons b bs ih =>
    have hb : b.toNat < 256 := b.isLt
    simp only [unle, List.length_cons, Nat.pow_succ]
    omega

/-- A slice that lies inside its string has the length its bounds say. -/
theorem slice_length {a b : Nat} {bs : Bytes} (h : b ≤ bs.length) : (slice a b bs).length = b - a := by
  simp only [slice, List.length_take, List.length_drop]; omega

@[simp] theorem pkcs7Pad_length (m : Nat) : (pkcs7Pad m).length = padLength m := by simp [pkcs7Pad]

/-- The PKCS7 pad has 1 to 16 bytes and fills the last block (42_header_signature R118). -/
theorem padLength_bounds (m : Nat) : 1 ≤ padLength m ∧ padLength m ≤ 16 ∧ (m + padLength m) % 16 = 0 := by
  simp only [padLength, blockSize]; omega

/-- Padding a payload of at most 16 bytes gives 16 bytes. -/
theorem padPayload_length {payload : Bytes} (h : payload.length ≤ 16) : (padPayload payload).length = 16 := by
  simp only [padPayload, List.length_append, List.length_replicate, payloadSize]; omega

end Sys2Proof.Machine
end

