-- ==== Sys2Proof/Laws/State.lean ====
section
/-! SUPPORT. One lemma per field per update of the state, each true by rfl, so that no proof unfolds an update. -/

namespace Sys2Proof.Machine

@[simp] theorem loadPkt_crc (s : State) (p : Packet) : (s.loadPkt p).crc = s.crc := rfl
@[simp] theorem loadPkt_pkt (s : State) (p : Packet) : (s.loadPkt p).pkt = some p := rfl
@[simp] theorem loadPkt_rxbuf (s : State) (p : Packet) : (s.loadPkt p).rxbuf = s.rxbuf := rfl
@[simp] theorem loadPkt_err (s : State) (p : Packet) : (s.loadPkt p).err = s.err := rfl
@[simp] theorem loadPkt_strictPad (s : State) (p : Packet) : (s.loadPkt p).strictPad = s.strictPad := rfl
@[simp] theorem loadPkt_commands (s : State) (p : Packet) : (s.loadPkt p).commands = s.commands := rfl
@[simp] theorem loadPkt_response (s : State) (p : Packet) : (s.loadPkt p).response = s.response := rfl

@[simp] theorem rxStore_crc (s : State) (b : Byte) : (s.rxStore b).crc = s.crc := rfl
@[simp] theorem rxStore_pkt (s : State) (b : Byte) : (s.rxStore b).pkt = s.pkt := rfl
@[simp] theorem rxStore_rxbuf (s : State) (b : Byte) : (s.rxStore b).rxbuf = s.rxbuf ++ [b] := rfl
@[simp] theorem rxStore_err (s : State) (b : Byte) : (s.rxStore b).err = s.err := rfl
@[simp] theorem rxStore_strictPad (s : State) (b : Byte) : (s.rxStore b).strictPad = s.strictPad := rfl
@[simp] theorem rxStore_commands (s : State) (b : Byte) : (s.rxStore b).commands = s.commands := rfl
@[simp] theorem rxStore_response (s : State) (b : Byte) : (s.rxStore b).response = s.response := rfl

@[simp] theorem rxComplete_crc (s : State) (b : Byte) : (s.rxComplete b).crc = s.crc := rfl
@[simp] theorem rxComplete_pkt (s : State) (b : Byte) : (s.rxComplete b).pkt = some (packetOfFrame (s.rxbuf.take (frameSize - 1) ++ [b])) := rfl
@[simp] theorem rxComplete_rxbuf (s : State) (b : Byte) : (s.rxComplete b).rxbuf = [] := rfl
@[simp] theorem rxComplete_err (s : State) (b : Byte) : (s.rxComplete b).err = s.err := rfl
@[simp] theorem rxComplete_strictPad (s : State) (b : Byte) : (s.rxComplete b).strictPad = s.strictPad := rfl
@[simp] theorem rxComplete_commands (s : State) (b : Byte) : (s.rxComplete b).commands = s.commands := rfl
@[simp] theorem rxComplete_response (s : State) (b : Byte) : (s.rxComplete b).response = s.response := rfl

@[simp] theorem resetRegisters_crc (s : State) : (s.resetRegisters).crc = 0x0000#16 := rfl
@[simp] theorem resetRegisters_pkt (s : State) : (s.resetRegisters).pkt = none := rfl
@[simp] theorem resetRegisters_rxbuf (s : State) : (s.resetRegisters).rxbuf = [] := rfl
@[simp] theorem resetRegisters_err (s : State) : (s.resetRegisters).err = 0#4 := rfl
@[simp] theorem resetRegisters_strictPad (s : State) : (s.resetRegisters).strictPad = s.strictPad := rfl
@[simp] theorem resetRegisters_commands (s : State) : (s.resetRegisters).commands = s.commands := rfl
@[simp] theorem resetRegisters_response (s : State) : (s.resetRegisters).response = s.response := rfl

@[simp] theorem withFetchWord_crc (s : State) (nbits w : Nat) : (s.withFetchWord nbits w).crc = s.crc := rfl
@[simp] theorem withFetchWord_pkt (s : State) (nbits w : Nat) : (s.withFetchWord nbits w).pkt = s.pkt := rfl
@[simp] theorem withFetchWord_rxbuf (s : State) (nbits w : Nat) : (s.withFetchWord nbits w).rxbuf = s.rxbuf := rfl
@[simp] theorem withFetchWord_err (s : State) (nbits w : Nat) : (s.withFetchWord nbits w).err = s.err := rfl
@[simp] theorem withFetchWord_strictPad (s : State) (nbits w : Nat) : (s.withFetchWord nbits w).strictPad = s.strictPad := rfl
@[simp] theorem withFetchWord_commands (s : State) (nbits w : Nat) : (s.withFetchWord nbits w).commands = tableWordCommand nbits w :: s.commands := rfl
@[simp] theorem withFetchWord_response (s : State) (nbits w : Nat) : (s.withFetchWord nbits w).response = s.response := rfl

@[simp] theorem reset_crc : State.reset.crc = 0x0000#16 := rfl
@[simp] theorem reset_pkt : State.reset.pkt = none := rfl
@[simp] theorem reset_rxbuf : State.reset.rxbuf = [] := rfl
@[simp] theorem reset_err : State.reset.err = 0#4 := rfl
@[simp] theorem reset_strictPad : State.reset.strictPad = false := rfl
@[simp] theorem reset_commands : State.reset.commands = [] := rfl
@[simp] theorem reset_response : State.reset.response = [] := rfl

end Sys2Proof.Machine
end

