-- ==== Sys2Proof/Laws/Ops.lean ====
section
/-! SUPPORT. One lemma for each shared operation that says everything it can do. -/

namespace Sys2Proof.Machine

/-- `return v` ends in a next state with `OK` and the result, every register kept. -/
theorem answer_eq_next_iff (s t : State) (result : Bytes) :
    s.answer result = .next t ↔ t = { s with response := okByte :: result } := by
  simp only [State.answer, Host.Outcome.next.injEq]; exact eq_comm

/-- `raise E` ends in a next state with the code in `ERR` and alone in the response, every other register kept. -/
theorem raise_eq_next_iff (s t : State) (e : ErrorCode) :
    s.raise e = .next t ↔ t = { s with err := e.code, response := [e.byte] } := by
  simp only [State.raise, Host.Outcome.next.injEq]; exact eq_comm

/-- No error's code is `OK` (60_exceptions R160). -/
theorem code_ne_zero (e : ErrorCode) : e.code ≠ 0#4 := by cases e <;> decide

/-- No error's response byte is that of `OK`. -/
theorem byte_ne_okByte (e : ErrorCode) : e.byte ≠ okByte := by cases e <;> decide

/-- Every error's code is one of 60_exceptions R160. -/
theorem code_legal (e : ErrorCode) : e.code.toNat ≤ 8 ∨ e.code.toNat = 15 := by cases e <;> decide

/-- `need PKT` on a loaded register reads the packet. -/
theorem needPkt_some {s : State} {p : Packet} (h : s.pkt = some p) (read : Packet → Answer) : s.needPkt read = read p := by
  simp [State.needPkt, h]

/-- `need PKT` on an empty register raises `ERR_EMPTY`. -/
theorem needPkt_none {s : State} (h : s.pkt = none) (read : Packet → Answer) : s.needPkt read = s.raise .empty := by
  simp [State.needPkt, h]

/-- `need PKT` either raises `ERR_EMPTY` on an empty register or reads the packet of a loaded one. -/
theorem needPkt_cases (s : State) (read : Packet → Answer) :
    (s.pkt = none ∧ s.needPkt read = s.raise .empty) ∨ ∃ p, s.pkt = some p ∧ s.needPkt read = read p := by
  cases h : s.pkt with
  | none => exact .inl ⟨rfl, needPkt_none h read⟩
  | some p => exact .inr ⟨p, rfl, needPkt_some h read⟩

/-- A type operand names a packet type exactly when it is 0 or 1. -/
theorem packetTypeOf_eq_some_iff (type : Byte) (t : PacketType) : packetTypeOf type = some t ↔ type = t.code := by
  simp only [packetTypeOf]
  cases t <;> (split <;> simp_all [PacketType.code])

/-- A type operand names no packet type exactly when it is neither 0 nor 1. -/
theorem packetTypeOf_eq_none_iff (type : Byte) : packetTypeOf type = none ↔ type ≠ 0#8 ∧ type ≠ 1#8 := by
  simp only [packetTypeOf]; split <;> [simp_all; (split <;> simp_all)]

/-- A command is taken exactly when the host has one to issue, and nothing but the list of commands changes. -/
theorem takeCommand_eq_some_iff (s t : State) (bytes : Bytes) :
    s.takeCommand = some (bytes, t) ↔ ∃ rest, s.commands = bytes :: rest ∧ t = { s with commands := rest } := by
  cases h : s.commands with
  | nil => simp [State.takeCommand, h]
  | cons c rest =>
    simp only [State.takeCommand, h, Option.some.injEq, Prod.mk.injEq, List.cons.injEq]
    constructor
    · rintro ⟨rfl, rfl⟩; exact ⟨rest, ⟨rfl, rfl⟩, rfl⟩
    · rintro ⟨_, ⟨rfl, rfl⟩, rfl⟩; exact ⟨rfl, rfl⟩

/-- What an instruction does, said once: it answers on a state in which its own registers may be new, or it raises an error
on the state it found. -/
theorem exec_answers_or_raises (i : Instr) (s : State) :
    (∃ (u : State) (result : Bytes), exec i s = u.answer result ∧ u.strictPad = s.strictPad ∧ u.commands = s.commands ∧
      (u.crc = s.crc ∨ i = .sysReset ∨ i = .crcInit ∨ ∃ b, i = .crcByte b) ∧
      (u.pkt = s.pkt ∨ i = .sysReset ∨ (∃ type payload, i = .pktEncode type payload) ∨
        (∃ frame, i = .pktDecode frame) ∨ ∃ b, i = .rxPush b) ∧
      (u.rxbuf = s.rxbuf ∨ i = .sysReset ∨ ∃ b, i = .rxPush b) ∧
      (u.err = s.err ∨ (u.err = 0#4 ∧ (i = .sysReset ∨ i = .sysClrerr)))) ∨
    ∃ e, exec i s = s.raise e := by
  cases i with
  | sysReset => exact .inl ⟨s.resetRegisters, _, rfl, by simp⟩
  | sysStatus | crcRead | sigUnpack _ | hdrPack _ _ _ _ | hdrParse _ | contJoin _ _ => exact .inl ⟨s, _, rfl, by simp⟩
  | sysClrerr => exact .inl ⟨{ s with err := 0#4 }, _, rfl, by simp⟩
  | crcInit => exact .inl ⟨{ s with crc := crcInitValue }, _, rfl, by simp⟩
  | crcByte b => exact .inl ⟨{ s with crc := crcStep s.crc b }, _, rfl, by simp⟩
  | pktEncode type payload =>
    simp only [exec, execPktEncode]
    split
    · exact .inr ⟨_, rfl⟩
    · split
      · exact .inr ⟨_, rfl⟩
      · exact .inl ⟨_, _, rfl, by simp⟩
  | pktDecode frame =>
    simp only [exec, execPktDecode]
    split
    · exact .inr ⟨_, rfl⟩
    · exact .inl ⟨_, _, rfl, by simp⟩
  | pktRaw | pktValid | pktIsop _ | pktType | pktLen | pktCrc =>
    rcases needPkt_cases s _ with ⟨_, h⟩ | ⟨p, _, h⟩
    · exact .inr ⟨_, h⟩
    · exact .inl ⟨s, _, h, by simp⟩
  | pktPayload =>
    simp only [exec, execPktPayload]
    rcases needPkt_cases s _ with ⟨_, h⟩ | ⟨p, _, h⟩ <;> rw [h]
    · exact .inr ⟨_, rfl⟩
    · split
      · exact .inr ⟨_, rfl⟩
      · exact .inl ⟨s, _, rfl, by simp⟩
  | rxPush b =>
    simp only [exec, execRxPush]
    split <;> exact .inl ⟨_, _, rfl, by simp⟩
  | sigPack r t =>
    simp only [exec, execSigPack]
    split
    · exact .inr ⟨_, rfl⟩
    · exact .inl ⟨s, _, rfl, by simp⟩
  | imgBuild _ _ _ body =>
    simp only [exec, execImgBuild]
    split
    · exact .inr ⟨_, rfl⟩
    · exact .inl ⟨s, _, rfl, by simp⟩
  | imgExtract plaintext =>
    simp only [exec, execImgExtract]
    split
    · exact .inr ⟨_, rfl⟩
    · exact .inl ⟨s, _, rfl, by simp⟩
  | contSplit container =>
    simp only [exec, execContSplit]
    split
    · exact .inr ⟨_, rfl⟩
    · exact .inl ⟨s, _, rfl, by simp⟩
  | data _ | control _ | ack | nack | retx | synced | updateRequest | fwSizeRequest | fwUpdateDone => exact .inr ⟨_, rfl⟩

end Sys2Proof.Machine
end

