-- ==== Sys2Proof/Laws/Packet.lean ====
section
/-! SUPPORT. The packet register keeps its 16 payload bytes under every operation that loads it (10_state R12). -/

namespace Sys2Proof.Machine

/-- A packet taken from a 19-byte frame has 16 payload bytes. -/
theorem packetOfFrame_payload_length {frame : Bytes} (h : frame.length = 19) : (packetOfFrame frame).payload.length = 16 := by
  simp only [packetOfFrame]
  rw [slice_length (by simp [h])]
  rfl

/-- A packet made of a payload of at most 16 bytes has 16 payload bytes. -/
theorem encodedPacket_payload_length (type : PacketType) {payload : Bytes} (h : payload.length ≤ 16) :
    (encodedPacket type payload).payload.length = 16 := padPayload_length h

/-- `PKT.RAW` of a legal packet has 19 bytes. -/
theorem frame_length {p : Packet} (h : p.payload.length = 16) : p.frame.length = 19 := by
  simp [Packet.frame, Packet.covered, h]

end Sys2Proof.Machine
end

