-- ==== Sys2Proof/Laws/Params.lean ====
section
/-! SUPPORT. The definitions that use named parameters, at the values 00_scope R4 gives them, so that a proof about lengths
and offsets has numerals and unfolds no parameter. -/

namespace Sys2Proof

open Machine

@[simp] theorem fixedLen_n : Format.n.fixedLen = 0 := rfl
@[simp] theorem fixedLen_b : Format.b.fixedLen = 1 := rfl
@[simp] theorem fixedLen_e : Format.e.fixedLen = 9 := rfl
@[simp] theorem fixedLen_v : Format.v.fixedLen = 8 := rfl
@[simp] theorem fixedLen_s : Format.s.fixedLen = 66 := rfl
@[simp] theorem fixedLen_f64 : Format.f64.fixedLen = 64 := rfl
@[simp] theorem fixedLen_h : Format.h.fixedLen = 76 := rfl
@[simp] theorem fixedLen_f128 : Format.f128.fixedLen = 128 := rfl
@[simp] theorem fixedLen_i : Format.i.fixedLen = 80 := rfl
@[simp] theorem fixedLen_j : Format.j.fixedLen = 24 := rfl

/-- How many operand bytes a format needs: 8 of its fixed bytes are the length of a counted string. -/
theorem need_eq (f : Format) (ops : Bytes) : f.need ops =
    f.fixedLen + if f.isCounted then unle (slice (f.fixedLen - 8) f.fixedLen ops) else 0 := rfl

/-- A 32-bit operand is four bytes. -/
theorem field32_eq (k : Nat) (ops : Bytes) : field32 k ops = BitVec.ofNat 32 (unle (slice k (k + 4) ops)) := rfl

/-- An operand of `SIG.PACK` is 33 bytes. -/
theorem fieldRs_eq (k : Nat) (ops : Bytes) : fieldRs k ops = BitVec.ofNat 264 (unbe (slice k (k + 33) ops)) := rfl

/-- The rows of the command codes, every offset a numeral. -/
theorem commandRows_eq : commandRows =
    [ ⟨0x80#8, .n, fun _ => .sysReset⟩, ⟨0x81#8, .n, fun _ => .sysStatus⟩, ⟨0x82#8, .n, fun _ => .sysClrerr⟩,
      ⟨0x90#8, .n, fun _ => .crcInit⟩, ⟨0x91#8, .b, fun ops => .crcByte (ops.headD 0#8)⟩,
      ⟨0x92#8, .n, fun _ => .crcRead⟩, ⟨0xA0#8, .e, fun ops => .pktEncode (ops.headD 0#8) (ops.drop 9)⟩,
      ⟨0xA1#8, .v, fun ops => .pktDecode (ops.drop 8)⟩, ⟨0xA2#8, .n, fun _ => .pktRaw⟩,
      ⟨0xA3#8, .n, fun _ => .pktValid⟩, ⟨0xA4#8, .b, fun ops => .pktIsop (ops.headD 0#8)⟩,
      ⟨0xA5#8, .n, fun _ => .pktType⟩, ⟨0xA6#8, .n, fun _ => .pktLen⟩, ⟨0xA7#8, .n, fun _ => .pktPayload⟩,
      ⟨0xA8#8, .n, fun _ => .pktCrc⟩, ⟨0xA9#8, .b, fun ops => .rxPush (ops.headD 0#8)⟩ ] ++
    [ ⟨0xB0#8, .s, fun ops => .sigPack (fieldRs 0 ops) (fieldRs 33 ops)⟩, ⟨0xB1#8, .f64, fun ops => .sigUnpack ops⟩,
      ⟨0xB2#8, .h, fun ops => .hdrPack (field32 0 ops) (field32 4 ops) (field32 8 ops) (ops.drop 12)⟩,
      ⟨0xB3#8, .f128, fun ops => .hdrParse ops⟩,
      ⟨0xB4#8, .i, fun ops => .imgBuild (field32 0 ops) (field32 4 ops) (slice 8 72 ops) (ops.drop 80)⟩,
      ⟨0xB5#8, .v, fun ops => .imgExtract (ops.drop 8)⟩,
      ⟨0xB6#8, .j, fun ops => .contJoin (slice 0 16 ops) (ops.drop 24)⟩,
      ⟨0xB7#8, .v, fun ops => .contSplit (ops.drop 8)⟩ ] := rfl

/-- `SIG.PACK` takes 33 bytes for each number. -/
theorem encode_sigPack (r s : BitVec Config.wRs) :
    encode (.sigPack r s) = 0xB0#8 :: (beBytes 33 r.toNat ++ beBytes 33 s.toNat) := rfl

namespace Machine

/-- `SIG.PACK` fails from 2^256 on. -/
theorem execSigPack_eq (r t : BitVec Config.wRs) (s : State) : execSigPack r t s =
    if r.toNat ≥ 2 ^ 256 ∨ t.toNat ≥ 2 ^ 256 then s.raise .sigEncoding
    else s.answer (signatureBytes r.toNat t.toNat) := rfl

/-- The fields of a header at their offsets 0, 4, 8 and 12. -/
theorem parseHeader_eq (hdr : Bytes) : parseHeader hdr =
    ⟨BitVec.ofNat 32 (unle (slice 0 4 hdr)), BitVec.ofNat 32 (unle (slice 4 8 hdr)),
      BitVec.ofNat 32 (unle (slice 8 12 hdr)), slice 12 76 hdr⟩ := rfl

/-- The metadata byte is `type * 32 + length` (30_encoding R51). -/
theorem metaByte_eq (type : PacketType) (length : Nat) :
    metaByte type length = BitVec.ofNat 8 (type.code.toNat * 32 + length) := rfl

end Machine

end Sys2Proof
end

