-- ==== Sys2Proof/Laws/PerInstr.lean ====
section
/-! SUPPORT. Per-instruction laws. FirstByte: the first byte of an instruction's encoding matches the `match` and `mask` of
its row of spec/opcode_table.json (30_encoding R79). -/

namespace Sys2Proof.Laws.FirstByte

/-- The `match` and `mask` columns of the instruction's row, transcribed from spec/opcode_table.json. -/
def row : Instr → Byte × Byte
  | .sysReset => (0x80#8, 0xFF#8)
  | .sysStatus => (0x81#8, 0xFF#8)
  | .sysClrerr => (0x82#8, 0xFF#8)
  | .crcInit => (0x90#8, 0xFF#8)
  | .crcByte _ => (0x91#8, 0xFF#8)
  | .crcRead => (0x92#8, 0xFF#8)
  | .pktEncode _ _ => (0xA0#8, 0xFF#8)
  | .pktDecode _ => (0xA1#8, 0xFF#8)
  | .pktRaw => (0xA2#8, 0xFF#8)
  | .pktValid => (0xA3#8, 0xFF#8)
  | .pktIsop _ => (0xA4#8, 0xFF#8)
  | .pktType => (0xA5#8, 0xFF#8)
  | .pktLen => (0xA6#8, 0xFF#8)
  | .pktPayload => (0xA7#8, 0xFF#8)
  | .pktCrc => (0xA8#8, 0xFF#8)
  | .rxPush _ => (0xA9#8, 0xFF#8)
  | .sigPack _ _ => (0xB0#8, 0xFF#8)
  | .sigUnpack _ => (0xB1#8, 0xFF#8)
  | .hdrPack _ _ _ _ => (0xB2#8, 0xFF#8)
  | .hdrParse _ => (0xB3#8, 0xFF#8)
  | .imgBuild _ _ _ _ => (0xB4#8, 0xFF#8)
  | .imgExtract _ => (0xB5#8, 0xFF#8)
  | .contJoin _ _ => (0xB6#8, 0xFF#8)
  | .contSplit _ => (0xB7#8, 0xFF#8)
  | .data _ => (0x00#8, 0xE0#8)
  | .control _ => (0x20#8, 0xE0#8)
  | .ack => (0x06#8, 0xFF#8)
  | .nack => (0x15#8, 0xFF#8)
  | .retx => (0x18#8, 0xFF#8)
  | .synced => (0x16#8, 0xFF#8)
  | .updateRequest => (0x11#8, 0xFF#8)
  | .fwSizeRequest => (0x12#8, 0xFF#8)
  | .fwUpdateDone => (0x04#8, 0xFF#8)

/-- An instruction's encoding begins with a byte that its table row matches. -/
def Statement (i : Instr) : Prop := ∃ b rest, encode i = b :: rest ∧ b &&& (row i).2 = (row i).1

theorem sysReset : Statement .sysReset := ⟨_, _, rfl, by decide⟩

theorem sysStatus : Statement .sysStatus := ⟨_, _, rfl, by decide⟩

theorem sysClrerr : Statement .sysClrerr := ⟨_, _, rfl, by decide⟩

theorem crcInit : Statement .crcInit := ⟨_, _, rfl, by decide⟩

theorem crcByte (b : Byte) : Statement (.crcByte b) := ⟨_, _, rfl, by simp [row]⟩

theorem crcRead : Statement .crcRead := ⟨_, _, rfl, by decide⟩

theorem pktEncode (type : Byte) (payload : Bytes) : Statement (.pktEncode type payload) := ⟨_, _, rfl, by simp [row]⟩

theorem pktDecode (frame : Bytes) : Statement (.pktDecode frame) := ⟨_, _, rfl, by simp [row]⟩

theorem pktRaw : Statement .pktRaw := ⟨_, _, rfl, by decide⟩

theorem pktValid : Statement .pktValid := ⟨_, _, rfl, by decide⟩

theorem pktIsop (op : Byte) : Statement (.pktIsop op) := ⟨_, _, rfl, by simp [row]⟩

theorem pktType : Statement .pktType := ⟨_, _, rfl, by decide⟩

theorem pktLen : Statement .pktLen := ⟨_, _, rfl, by decide⟩

theorem pktPayload : Statement .pktPayload := ⟨_, _, rfl, by decide⟩

theorem pktCrc : Statement .pktCrc := ⟨_, _, rfl, by decide⟩

theorem rxPush (b : Byte) : Statement (.rxPush b) := ⟨_, _, rfl, by simp [row]⟩

theorem sigPack (r s : BitVec Config.wRs) : Statement (.sigPack r s) := ⟨_, _, rfl, by simp [row]⟩

theorem sigUnpack (sig : Bytes) : Statement (.sigUnpack sig) := ⟨_, _, rfl, by simp [row]⟩

theorem hdrPack (version deviceId payloadSize : BitVec 32) (sig : Bytes) : Statement (.hdrPack version deviceId payloadSize sig) := ⟨_, _, rfl, by simp [row]⟩

theorem hdrParse (hdr : Bytes) : Statement (.hdrParse hdr) := ⟨_, _, rfl, by simp [row]⟩

theorem imgBuild (version deviceId : BitVec 32) (sig body : Bytes) : Statement (.imgBuild version deviceId sig body) := ⟨_, _, rfl, by simp [row]⟩

theorem imgExtract (plaintext : Bytes) : Statement (.imgExtract plaintext) := ⟨_, _, rfl, by simp [row]⟩

theorem contJoin (iv ct : Bytes) : Statement (.contJoin iv ct) := ⟨_, _, rfl, by simp [row]⟩

theorem contSplit (container : Bytes) : Statement (.contSplit container) := ⟨_, _, rfl, by simp [row]⟩

theorem data (length : BitVec 5) : Statement (.data length) :=
  ⟨_, _, rfl, by revert length; decide⟩

theorem control (length : BitVec 5) : Statement (.control length) :=
  ⟨_, _, rfl, by revert length; decide⟩

theorem ack : Statement .ack := ⟨_, _, rfl, by decide⟩

theorem nack : Statement .nack := ⟨_, _, rfl, by decide⟩

theorem retx : Statement .retx := ⟨_, _, rfl, by decide⟩

theorem synced : Statement .synced := ⟨_, _, rfl, by decide⟩

theorem updateRequest : Statement .updateRequest := ⟨_, _, rfl, by decide⟩

theorem fwSizeRequest : Statement .fwSizeRequest := ⟨_, _, rfl, by decide⟩

theorem fwUpdateDone : Statement .fwUpdateDone := ⟨_, _, rfl, by decide⟩

end Sys2Proof.Laws.FirstByte
end

