-- ==== Sys2Proof/Tests/Slice0.lean ====
section
/-! SUPPORT. The model's own tests: refused ill-formed terms, decoding of words written out from 30_encoding R61 and R63,
one step at a time from the vectors of spec/95_test_vectors.md, and a witness for every statement with hypotheses. -/

namespace Sys2Proof.Tests

open Sys2Proof.Machine Sys2Proof.Spec

/-! ## Helpers -/

/-- `n` bytes of value `b`. -/
def fill (b : Byte) (n : Nat) : Bytes := List.replicate n b

theorem fill_length (b : Byte) (n : Nat) : (fill b n).length = n := List.length_replicate

/-- The bytes `first`, `first + 1`, ... (`n` of them). -/
def countUp (first n : Nat) : Bytes := (List.range n).map fun i => BitVec.ofNat 8 (first + i)

/-- The next state of an answer, if there is one. -/
def nextOf : Answer → Option State
  | .next s => some s
  | .fault _ => none
  | .refused _ => none

/-- What the port answers to one command, and the block's state after it, the command list left out. -/
def send (command : Bytes) (s : State) : Option State := nextOf (step { s with commands := [command] })

/-- What the port answers to one command. -/
def reply (command : Bytes) (s : State) : Option Bytes := (send command s).map (·.response)

/-- The packet loaded after one command. -/
def packetAfter (command : Bytes) (s : State) : Option Packet := (send command s).bind (·.pkt)

/-- The reset state with a packet loaded. -/
def withPacket (p : Packet) : State := { State.reset with pkt := some p }

/-- The `ACK` frame, V20. -/
def ackFrame : Bytes := [0x21#8, 0x06#8] ++ fill 0xFF#8 15 ++ [0x47#8, 0x74#8]

/-- The `ACK` packet, V20. -/
def ackPacket : Packet := ⟨0x21#8, 0x06#8 :: fill 0xFF#8 15, 0x7447#16⟩

/-- The packet of length 31 with a right CRC, V35. -/
def longPacket : Packet := ⟨0x3F#8, fill 0xFF#8 16, 0xD7FC#16⟩

/-- A DATA packet of length 17 with a right CRC, V34. -/
def seventeenPacket : Packet := ⟨0x11#8, countUp 0 16, 0x5FDE#16⟩

/-- A full DATA packet, V31b. -/
def fullPacket : Packet := ⟨0x10#8, countUp 0 16, 0x4F3C#16⟩

/-- A state in which every register holds something. -/
def busy : State := { State.reset with crc := 0x2672#16, pkt := some ackPacket, rxbuf := countUp 1 18, err := 15#4 }

/-- `sig` of V41: `r` = 01 02 .. 20, `s` = 7F. -/
def sampleSig : Bytes := countUp 1 32 ++ fill 0x00#8 31 ++ [0x7F#8]

/-- The 128 header bytes of V40. -/
def sampleHdr : Bytes :=
  [0x03#8, 0x02#8, 0x01#8, 0x00#8, 0x69#8, 0x00#8, 0x00#8, 0x00#8, 0x21#8, 0x00#8, 0x00#8, 0x00#8] ++ sampleSig ++
    fill 0xFF#8 52

/-- The 176 plaintext bytes of V42. -/
def sampleImage : Bytes := sampleHdr ++ countUp 0x20 33 ++ fill 0x0F#8 15

/-- The image of V44: offset 8 changed. -/
def imageWithSize (b : Byte) : Bytes := sampleImage.set 8 b

/-! ## WellFormed refuses ill-formed terms, and accepts well-formed ones at the boundary -/

theorem test_wf_sigUnpack : ¬ (Instr.sigUnpack (fill 0 63)).WellFormed ∧ (Instr.sigUnpack (fill 0 64)).WellFormed := by
  simp [Instr.WellFormed, fill_length]

theorem test_wf_hdrPack : ¬ (Instr.hdrPack 0 0 0 (fill 0 65)).WellFormed ∧ (Instr.hdrPack 0 0 0 sampleSig).WellFormed := by
  simp [Instr.WellFormed, fill_length, sampleSig, countUp]

theorem test_wf_hdrParse : ¬ (Instr.hdrParse (fill 0 127)).WellFormed ∧ (Instr.hdrParse (fill 0 128)).WellFormed := by
  simp [Instr.WellFormed, fill_length]

theorem test_wf_imgBuild : ¬ (Instr.imgBuild 0 0 [] []).WellFormed ∧
    ¬ (Instr.imgBuild 0 0 (fill 0 64) (fill 0 (2 ^ 64))).WellFormed ∧
    (Instr.imgBuild 0 0 (fill 0 64) (fill 0 (2 ^ 32))).WellFormed := by
  simp [Instr.WellFormed, fill_length]

theorem test_wf_contJoin : ¬ (Instr.contJoin (fill 0 15) []).WellFormed ∧
    ¬ (Instr.contJoin (fill 0 16) (fill 0 (2 ^ 64))).WellFormed ∧
    (Instr.contJoin (fill 0 16) (fill 0 (2 ^ 64 - 1))).WellFormed := by
  simp [Instr.WellFormed, fill_length]

theorem test_wf_counted : ¬ (Instr.pktEncode 0 (fill 0 (2 ^ 64))).WellFormed ∧
    ¬ (Instr.pktDecode (fill 0 (2 ^ 64))).WellFormed ∧ ¬ (Instr.imgExtract (fill 0 (2 ^ 64))).WellFormed ∧
    ¬ (Instr.contSplit (fill 0 (2 ^ 64))).WellFormed ∧ (Instr.pktEncode 255#8 (fill 0 17)).WellFormed := by
  simp [Instr.WellFormed, fill_length]

/-- 0x06 as a metadata byte of DATA is the word of row `ACK`; 0x05 is a DATA word. -/
theorem test_wf_data : ¬ (Instr.data 6#5).WellFormed ∧ (Instr.data 5#5).WellFormed := by
  simp [Instr.WellFormed, controlCodeLengths]

/-! ## Decoding: words written out from 30_encoding R61 to R63, R52, R54 -/

theorem test_decode_system : [[0x80#8], [0x81#8], [0x82#8]].map decode =
    [Instr.sysReset, .sysStatus, .sysClrerr].map .instr := by decide

theorem test_decode_crc : [[0x90#8], [0x91#8, 0x31#8], [0x92#8]].map decode =
    [Instr.crcInit, .crcByte 0x31#8, .crcRead].map .instr := by decide

/-- P2: `A0 01 01 00 00 00 00 00 00 00 06` is `PKT.ENCODE CONTROL, [06]`. -/
theorem test_decode_pktEncode : decode [0xA0#8, 0x01#8, 0x01#8, 0#8, 0#8, 0#8, 0#8, 0#8, 0#8, 0#8, 0x06#8] =
    .instr (.pktEncode 1#8 [0x06#8]) := by decide

/-- P5: `A1 13 00 00 00 00 00 00 00 3F (FF x16) FC D7`. -/
theorem test_decode_pktDecode :
    decode ([0xA1#8, 0x13#8, 0#8, 0#8, 0#8, 0#8, 0#8, 0#8, 0#8, 0x3F#8] ++ fill 0xFF#8 16 ++ [0xFC#8, 0xD7#8]) =
    .instr (.pktDecode (0x3F#8 :: (fill 0xFF#8 16 ++ [0xFC#8, 0xD7#8]))) := by decide

theorem test_decode_pkt_queries :
    [[0xA2#8], [0xA3#8], [0xA4#8, 0x18#8], [0xA5#8], [0xA6#8], [0xA7#8], [0xA8#8], [0xA9#8, 0x55#8]].map decode =
    [Instr.pktRaw, .pktValid, .pktIsop 0x18#8, .pktType, .pktLen, .pktPayload, .pktCrc, .rxPush 0x55#8].map .instr := by
  decide

/-- P6: the first `SIG.PACK` has 67 command bytes, and its numbers are big-endian in 33 bytes each. -/
theorem test_decode_sigPack :
    decode (0xB0#8 :: (0x01#8 :: fill 0#8 32 ++ (fill 0#8 32 ++ [0x7F#8]))) =
    .instr (.sigPack (BitVec.ofNat 264 (2 ^ 256)) 0x7F#264) := by decide +kernel

theorem test_decode_sigUnpack_hdrParse :
    decode (0xB1#8 :: sampleSig) = .instr (.sigUnpack sampleSig) ∧
    decode (0xB3#8 :: sampleHdr) = .instr (.hdrParse sampleHdr) := by decide +kernel

theorem test_decode_hdrPack :
    decode ([0xB2#8, 0x03#8, 0x02#8, 0x01#8, 0x00#8, 0x69#8, 0x00#8, 0x00#8, 0x00#8, 0x21#8, 0x00#8, 0x00#8, 0x00#8] ++
      sampleSig) = .instr (.hdrPack 0x00010203#32 0x69#32 33#32 sampleSig) := by decide +kernel

/-- P6: `IMG.BUILD` with a body of two bytes. -/
theorem test_decode_imgBuild :
    decode ([0xB4#8, 0x03#8, 0x02#8, 0x01#8, 0x00#8, 0x69#8, 0x00#8, 0x00#8, 0x00#8] ++ sampleSig ++
      [0x02#8, 0#8, 0#8, 0#8, 0#8, 0#8, 0#8, 0#8, 0xAA#8, 0xBB#8]) =
    .instr (.imgBuild 0x00010203#32 0x69#32 sampleSig [0xAA#8, 0xBB#8]) := by decide +kernel

theorem test_decode_imgExtract_contSplit :
    decode [0xB5#8, 0x02#8, 0#8, 0#8, 0#8, 0#8, 0#8, 0#8, 0#8, 0xAA#8, 0xBB#8] = .instr (.imgExtract [0xAA#8, 0xBB#8]) ∧
    decode [0xB7#8, 0x01#8, 0#8, 0#8, 0#8, 0#8, 0#8, 0#8, 0#8, 0xCC#8] = .instr (.contSplit [0xCC#8]) := by decide

theorem test_decode_contJoin :
    decode (0xB6#8 :: (countUp 0 16 ++ [0x01#8, 0#8, 0#8, 0#8, 0#8, 0#8, 0#8, 0#8, 0xAA#8])) =
    .instr (.contJoin (countUp 0 16) [0xAA#8]) := by decide +kernel

theorem test_decode_other_rows :
    [[0x10#8], [0x30#8], [0x06#8], [0x15#8], [0x18#8], [0x16#8], [0x11#8], [0x12#8], [0x04#8]].map decode =
    [Instr.data 16#5, .control 16#5, .ack, .nack, .retx, .synced, .updateRequest, .fwSizeRequest,
      .fwUpdateDone].map .instr := by decide

/-- 30_encoding R75: an undefined code, an extra byte, a byte too few, no bytes (P5: `83`, `90 00`). -/
theorem test_decode_rejects :
    [[0x83#8], [0x90#8, 0x00#8], [0x91#8], [], [0x40#8], [0x06#8, 0x06#8]].map decode =
    [Decoded.reject (.undefinedCode 0x83#8), .reject (.tooLong 0x90#8), .reject (.tooShort 0x91#8), .reject .noCode,
      .reject (.undefinedCode 0x40#8), .reject (.undefinedCode 0x06#8)] := by decide

/-! ## One step each, from spec/95_test_vectors.md -/

/-- 43_system R130's example. -/
theorem test_sysReset : (send [0x80#8] busy).map (fun t => (t.crc, t.pkt, t.rxbuf, t.err, t.response)) =
    some (0x0000#16, none, [], 0#4, [0x00#8]) := by decide

/-- V47: `RXCNT = 3`, loaded, `ERR = 1` is 0x0123; `RXCNT = 18`, not loaded, `ERR = 15` is 0x0F12. -/
theorem test_sysStatus :
    reply [0x81#8] { withPacket ackPacket with rxbuf := [1#8, 2#8, 3#8], err := 1#4 } = some [0x00#8, 0x23#8, 0x01#8] ∧
    reply [0x81#8] { State.reset with rxbuf := countUp 0 18, err := 15#4 } = some [0x00#8, 0x12#8, 0x0F#8] := by decide

theorem test_sysClrerr : send [0x82#8] busy = some { busy with err := 0#4, response := [0x00#8] } := by decide

/-- 40_crc R82's example. -/
theorem test_crcInit : send [0x90#8] busy = some { busy with crc := 0x0000#16, response := [0x00#8] } := by decide

/-- V15 and P1: the register after a byte. -/
theorem test_crcByte : crcStep 0xFFFF#16 0x00#8 = 0xE1F0#16 ∧ crcStep 0x1234#16 0x56#8 = 0x3C40#16 ∧
    (send [0x91#8, 0x32#8] busy).map (·.crc) = some 0x20B5#16 := by decide +kernel

/-- P1: `92 -> 00 C3 31`. -/
theorem test_crcRead : reply [0x92#8] { State.reset with crc := 0x31C3#16 } = some [0x00#8, 0xC3#8, 0x31#8] := by decide

/-- V8, V10, V11: `crc16_xmodem` of the check string, of 17 bytes FF, of "abc". -/
theorem test_crc16_vectors : crc16Xmodem (countUp 0x31 9) = 0x31C3#16 ∧ crc16Xmodem (fill 0xFF#8 17) = 0x5FF0#16 ∧
    crc16Xmodem [0x61#8, 0x62#8, 0x63#8] = 0x9DD6#16 := by decide +kernel

/-- V20 and V31a: the packet of `PKT.ENCODE CONTROL, [06]` and of an empty DATA packet. -/
theorem test_pktEncode :
    packetAfter [0xA0#8, 0x01#8, 0x01#8, 0#8, 0#8, 0#8, 0#8, 0#8, 0#8, 0#8, 0x06#8] State.reset = some ackPacket ∧
    packetAfter [0xA0#8, 0x00#8, 0#8, 0#8, 0#8, 0#8, 0#8, 0#8, 0#8, 0#8] busy =
      some ⟨0x00#8, fill 0xFF#8 16, 0x0041#16⟩ := by decide +kernel

/-- P5: type 2 and 17 bytes is `ERR_BAD_TYPE` (type first); DATA and 17 bytes is `ERR_PAYLOAD_SIZE`; the packet stays. -/
theorem test_pktEncode_errors :
    send ([0xA0#8, 0x02#8, 0x11#8, 0#8, 0#8, 0#8, 0#8, 0#8, 0#8, 0#8] ++ fill 0#8 17) busy =
      some { busy with err := 3#4, response := [0x03#8] } ∧
    send ([0xA0#8, 0x00#8, 0x11#8, 0#8, 0#8, 0#8, 0#8, 0#8, 0#8, 0#8] ++ fill 0#8 17) busy =
      some { busy with err := 2#4, response := [0x02#8] } := by decide

/-- V35 loads; V55: 18 bytes are `ERR_FRAME_SIZE`. -/
theorem test_pktDecode :
    packetAfter ([0xA1#8, 0x13#8, 0#8, 0#8, 0#8, 0#8, 0#8, 0#8, 0#8, 0x3F#8] ++ fill 0xFF#8 16 ++ [0xFC#8, 0xD7#8])
      State.reset = some longPacket ∧
    send ([0xA1#8, 0x12#8, 0#8, 0#8, 0#8, 0#8, 0#8, 0#8, 0#8] ++ fill 0#8 18) busy =
      some { busy with err := 1#4, response := [0x01#8] } := by decide

/-- P2: `A2 -> 00 21 06 FF x15 47 74`. -/
theorem test_pktRaw : reply [0xA2#8] (withPacket ackPacket) = some (0x00#8 :: ackFrame) := by decide

/-- V57: every reader of an empty `PKT` answers `04`. -/
theorem test_readers_of_empty : [[0xA2#8], [0xA3#8], [0xA4#8, 0x06#8], [0xA5#8], [0xA6#8], [0xA7#8], [0xA8#8]].map
    (fun c => reply c State.reset) = List.replicate 7 (some [0x04#8]) := by decide

/-- V20, V36 and V50 are valid; V34 (length 17, right CRC), V52 and V53 (CRC bytes swapped) are not. -/
theorem test_pktValid : [ackPacket, ⟨0xA1#8, 0x06#8 :: fill 0xFF#8 15, 0x844F#16⟩,
      ⟨0x21#8, 0x06#8 :: 0x00#8 :: fill 0xFF#8 14, 0x8610#16⟩, seventeenPacket, ⟨0xFF#8, fill 0xFF#8 16, 0xFFFF#16⟩,
      ⟨0x21#8, 0x06#8 :: fill 0xFF#8 15, 0x4774#16⟩].map (fun p => reply [0xA3#8] (withPacket p)) =
    [some [0#8, 1#8], some [0#8, 1#8], some [0#8, 1#8], some [0#8, 0#8], some [0#8, 0#8], some [0#8, 0#8]] := by
  decide +kernel

/-- V39 (length 0, still true), V36 and V37 (not CONTROL, false), V53 (bad CRC, still true), `ISOP 0x06` each. -/
theorem test_pktIsop : [⟨0x20#8, 0x06#8 :: fill 0xFF#8 15, 0x64A5#16⟩, ⟨0xA1#8, 0x06#8 :: fill 0xFF#8 15, 0x844F#16⟩,
      ⟨0x01#8, 0x06#8 :: fill 0xFF#8 15, 0x4845#16⟩, ⟨0x21#8, 0x06#8 :: fill 0xFF#8 15, 0x4774#16⟩].map
      (fun p => reply [0xA4#8, 0x06#8] (withPacket p)) =
    [some [0#8, 1#8], some [0#8, 0#8], some [0#8, 0#8], some [0#8, 1#8]] := by decide

/-- V36 and V52. -/
theorem test_pktType : reply [0xA5#8] (withPacket ⟨0xA1#8, 0x06#8 :: fill 0xFF#8 15, 0x844F#16⟩) = some [0#8, 5#8] ∧
    reply [0xA5#8] (withPacket ⟨0xFF#8, fill 0xFF#8 16, 0xFFFF#16⟩) = some [0#8, 7#8] := by decide

/-- P5: `A6 -> 00 1F`; the length is unclipped. -/
theorem test_pktLen : reply [0xA6#8] (withPacket longPacket) = some [0x00#8, 0x1F#8] := by decide

/-- P2: `A7 -> 00 01 06`; V31b: sixteen bytes; V34: `ERR_LENGTH`. -/
theorem test_pktPayload : reply [0xA7#8] (withPacket ackPacket) = some [0x00#8, 0x01#8, 0x06#8] ∧
    reply [0xA7#8] (withPacket fullPacket) = some (0x00#8 :: 0x10#8 :: countUp 0 16) ∧
    reply [0xA7#8] (withPacket seventeenPacket) = some [0x05#8] := by decide

/-- P2: `A8 -> 00 47 74`. -/
theorem test_pktCrc : reply [0xA8#8] (withPacket ackPacket) = some [0x00#8, 0x47#8, 0x74#8] := by decide

/-- P2: `A9 21 -> 00 00`, `RXCNT` 1, and the packet stays. -/
theorem test_rxPush_stores : send [0xA9#8, 0x21#8] (withPacket fullPacket) =
    some { withPacket fullPacket with rxbuf := [0x21#8], response := [0x00#8, 0x00#8] } := by decide

/-- P2: `A9 74 -> 00 01` at `RXCNT = 18` loads the `ACK` packet. -/
theorem test_rxPush_completes : send [0xA9#8, 0x74#8] { State.reset with rxbuf := ackFrame.take 18 } =
    some { withPacket ackPacket with response := [0x00#8, 0x01#8] } := by decide

/-- V41: 2^256 - 1 and 1; 2^256 needs 33 bytes. -/
theorem test_sigPack :
    (nextOf (exec (.sigPack (BitVec.ofNat 264 (2 ^ 256 - 1)) 1#264) State.reset)).map (·.response) =
      some (0x00#8 :: (fill 0xFF#8 32 ++ fill 0x00#8 31 ++ [0x01#8])) ∧
    (nextOf (exec (.sigPack 1#264 (BitVec.ofNat 264 (2 ^ 256))) State.reset)).map (·.response) = some [0x06#8] := by
  decide +kernel

/-- V41: the numbers of the sample signature, and the response. -/
theorem test_sigUnpack : signatureS sampleSig = 0x7F ∧
    signatureR sampleSig = 0x0102030405060708090A0B0C0D0E0F101112131415161718191A1B1C1D1E1F20 ∧
    reply (0xB1#8 :: sampleSig) State.reset = some (0x00#8 :: sampleSig) := by decide +kernel

/-- V40. -/
theorem test_hdrPack : (nextOf (exec (.hdrPack 0x00010203#32 0x69#32 33#32 sampleSig) State.reset)).map (·.response) =
    some (0x00#8 :: sampleHdr) := by decide +kernel

/-- V40, and the same with other reserved bytes (70_reset R191). -/
theorem test_hdrParse : parseHeader sampleHdr = ⟨66051#32, 105#32, 33#32, sampleSig⟩ ∧
    parseHeader (sampleHdr.take 76 ++ fill 0x00#8 52) = ⟨66051#32, 105#32, 33#32, sampleSig⟩ ∧
    reply (0xB3#8 :: sampleHdr) State.reset = some (0x00#8 :: sampleHdr.take 76) := by decide +kernel

/-- V42, with the length prefix of P6: `B0 00 ..`. -/
theorem test_imgBuild :
    (nextOf (exec (.imgBuild 0x00010203#32 0x69#32 sampleSig (countUp 0x20 33)) State.reset)).map (·.response) =
    some ([0x00#8, 0xB0#8, 0#8, 0#8, 0#8, 0#8, 0#8, 0#8, 0#8] ++ sampleImage) := by decide +kernel

/-- P6: the fields, `le64(33)`, the body. -/
theorem test_imgExtract : (nextOf (exec (.imgExtract sampleImage) State.reset)).map (·.response) =
    some (0x00#8 :: (sampleHdr.take 76 ++ [0x21#8, 0#8, 0#8, 0#8, 0#8, 0#8, 0#8, 0#8] ++ countUp 0x20 33)) := by
  decide +kernel

/-- V44: for `payload_size` 33, 34, 48, 49, 0, whether the image is accepted, `STRICT_PAD` false and true. -/
theorem test_imgExtract_bounds : [0x21#8, 0x22#8, 0x30#8, 0x31#8, 0x00#8].map (fun b =>
      ((extractImage false (imageWithSize b)).isSome, (extractImage true (imageWithSize b)).isSome)) =
    [(true, true), (true, true), (true, false), (false, false), (true, false)] := by decide +kernel

/-- V46 and P6's prefix form. -/
theorem test_contJoin : (nextOf (exec (.contJoin (countUp 0 16) (fill 0xAA#8 16)) State.reset)).map (·.response) =
    some ([0x00#8, 0x20#8, 0#8, 0#8, 0#8, 0#8, 0#8, 0#8, 0#8] ++ countUp 0 16 ++ fill 0xAA#8 16) := by decide +kernel

/-- V46 and V45: lengths 0, 15, 17, 31 fail; 16 and 32 do not. -/
theorem test_contSplit : splitContainer (countUp 0 16 ++ fill 0xAA#8 16) = some (countUp 0 16, fill 0xAA#8 16) ∧
    [0, 15, 16, 17, 31, 32].map (fun n => (splitContainer (fill 0#8 n)).isSome) =
      [false, false, true, false, false, true] := by decide +kernel

/-- P5: `83 -> 0F`, `90 00 -> 0F`; the state stays but for `ERR`. -/
theorem test_badCommand : [[0x83#8], [0x90#8, 0x00#8]].map (fun c => send c (withPacket ackPacket)) =
    List.replicate 2 (some { withPacket ackPacket with err := 15#4, response := [0x0F#8] }) := by decide

/-- 30_encoding R75: the bytes of the other table rows as commands. -/
theorem test_other_rows : [[0x10#8], [0x30#8], [0x06#8], [0x15#8], [0x18#8], [0x16#8], [0x11#8], [0x12#8], [0x04#8]].map
    (fun c => reply c State.reset) = List.replicate 9 (some [0x0F#8]) := by decide

/-- V27: the `SYNCED` packet is matched by rows `CONTROL` and `SYNCED`; V37's is matched by `DATA` alone. -/
theorem test_frameRows : (Packet.frameRows ⟨0x22#8, [0x16#8, 0x69#8] ++ fill 0xFF#8 14, 0xAA98#16⟩) =
      (some .control, some .synced) ∧
    (Packet.frameRows ⟨0x01#8, 0x06#8 :: fill 0xFF#8 15, 0x4845#16⟩) = (some .data, none) := by decide

/-- V22, V20 and V54, sorted (30_encoding R78, 44_host_boundary R146). -/
theorem test_classify : [⟨0x21#8, 0x18#8 :: fill 0xFF#8 15, 0x8673#16⟩, ackPacket,
      ⟨0x22#8, [0x16#8, 0x6D#8] ++ fill 0xFF#8 14, 0xAA98#16⟩].map (fun p => (pktClassify (withPacket p)).1) =
    [some .retxRequest, some .deliver, some .invalid] := by decide +kernel

/-- V57's `PKT.VALID` on an empty `PKT`: `ERR_EMPTY` and no class (log entry 13). -/
theorem test_classify_empty : (pktClassify State.reset).1 = none ∧
    (nextOf (pktClassify State.reset).2).map (fun t => (t.err, t.response)) = some (4#4, [0x04#8]) := by decide

/-- A table word runs as the first command after reset. -/
theorem test_withFetchWord : (nextOf (step (State.reset.withFetchWord 8 0xA9))).map (fun t => (t.rxbuf, t.commands)) =
    some ([0x00#8], []) := by decide

/-! ## Witnesses: for each statement with hypotheses a state and operands that meet them, and one for each clause. Each is
named after its statement. -/

theorem witness_SysStatusAnswersTheView : busy.Inv ∧ busy.rxcnt = 18 ∧ busy.pktLoaded = true ∧ State.reset.Inv := by
  decide

theorem witness_CrcStreamEqualsTheFunction :
    (∀ i ∈ [Instr.crcByte 0x31#8, .pktEncode 1#8 [0x06#8], .pktRaw, .crcByte 0x32#8], i ≠ .crcInit ∧ i ≠ .sysReset) ∧
    ∃ t, execAll [.crcByte 0x31#8, .pktEncode 1#8 [0x06#8], .pktRaw, .crcByte 0x32#8] busy = .next t :=
  ⟨by decide, _, rfl⟩

theorem witness_CrcIsLinear : ([0x12#8, 0x34#8, 0x56#8] : Bytes).length = ([0xAB#8, 0xCD#8, 0xEF#8] : Bytes).length := rfl

/-- V51: the CRC's two bytes are equal on the covered bytes of the all-zero frame; V8: they are not on the check string. -/
theorem witness_CrcResidueIsZeroHighByteFirst :
    (crc16Xmodem (fill 0#8 17)).extractLsb' 0 8 = (crc16Xmodem (fill 0#8 17)).extractLsb' 8 8 ∧
    (crc16Xmodem (countUp 0x31 9)).extractLsb' 0 8 ≠ (crc16Xmodem (countUp 0x31 9)).extractLsb' 8 8 := by decide +kernel

theorem witness_OneChangedBitChangesTheCrc :
    16 < ((0x21#8 :: 0x06#8 :: fill 0xFF#8 15) : Bytes).length ∧ 7 < 8 ∧ 0 < ([0x00#8] : Bytes).length ∧ 0 < 8 := by
  decide

/-- The two errors at the least operands that give them, and the largest and the empty payload that load. -/
theorem witness_PktEncodeLoadsThePacket :
    (2#8 ≠ 0#8 ∧ 2#8 ≠ 1#8) ∧ (¬ (1#8 ≠ 0#8 ∧ 1#8 ≠ 1#8) ∧ (fill 0#8 17).length > 16) ∧
    (¬ (1#8 ≠ 0#8 ∧ 1#8 ≠ 1#8) ∧ ¬ (fill 0#8 16).length > 16) ∧
    (¬ (0#8 ≠ 0#8 ∧ 0#8 ≠ 1#8) ∧ ¬ ([] : Bytes).length > 16) := by decide

theorem witness_PktDecodeLoadsEveryFrame :
    (fill 0#8 18).length ≠ 19 ∧ (fill 0#8 20).length ≠ 19 ∧ ¬ ackFrame.length ≠ 19 := by decide

/-- For every statement that splits on whether a packet is loaded. -/
theorem witness_packet_queries : State.reset.pkt = none ∧ State.reset.PktLegal ∧
    (withPacket ackPacket).pkt = some ackPacket ∧ (withPacket ackPacket).PktLegal := by decide

theorem witness_PktValidChecksLengthAndCrc :
    (ackPacket.metadata.toNat % 32 ≤ 16 ∧ ackPacket.crcf.toNat = crc16OnNumbers (ackPacket.metadata :: ackPacket.payload)) ∧
    ¬ seventeenPacket.metadata.toNat % 32 ≤ 16 ∧
    seventeenPacket.crcf.toNat = crc16OnNumbers (seventeenPacket.metadata :: seventeenPacket.payload) ∧
    ({ ackPacket with crcf := 0x4774#16 } : Packet).crcf.toNat ≠ crc16OnNumbers (ackPacket.metadata :: ackPacket.payload) := by
  decide +kernel

theorem witness_PktPayloadAnswersTheMeaningfulBytes :
    ((withPacket seventeenPacket).PktLegal ∧ seventeenPacket.metadata.toNat % 32 = 17) ∧
    ((withPacket fullPacket).PktLegal ∧ fullPacket.metadata.toNat % 32 = 16) := by decide

theorem witness_RxPushCutsTheStreamAtNineteen :
    (State.reset.RxLegal ∧ State.reset.rxcnt < 18) ∧ ({ busy with rxbuf := countUp 1 17 }).rxcnt = 17 ∧
    (busy.RxLegal ∧ ¬ busy.rxcnt < 18) := by decide

theorem witness_RxFrameLoadsWhatDecodeLoads : ackFrame.length = 19 ∧ (withPacket fullPacket).rxbuf = [] := by decide

theorem witness_RxFramingIsPositional : busy.RxLegal ∧ State.reset.RxLegal := by decide

theorem witness_PacketRoundTrip :
    ((1#8 = 0#8 ∨ 1#8 = 1#8) ∧ (countUp 0 16).length ≤ 16) ∧ ((0#8 = 0#8 ∨ 0#8 = 1#8) ∧ ([] : Bytes).length ≤ 16) ∧
    State.reset.rxbuf = [] := by decide

theorem witness_SingleBitCorruptionIsDetected :
    ackFrame.length = 19 ∧ exec (.pktDecode ackFrame) State.reset = .next { withPacket ackPacket with response := [0#8] } ∧
    exec .pktValid { withPacket ackPacket with response := [0#8] } =
      answers { withPacket ackPacket with response := [0#8] } [1#8] ∧ 18 < 19 ∧ 7 < 8 :=
  ⟨by decide, rfl, by
    have h : flagByte ackPacket.isValid = 1#8 := by decide +kernel
    show State.answer _ [flagByte ackPacket.isValid] = _
    rw [h]; rfl, by decide, by decide⟩

theorem witness_DecodeAndRawAreInverse :
    ackFrame.length = 19 ∧ (withPacket longPacket).PktLegal ∧ (withPacket longPacket).pkt.isSome := by decide

theorem witness_EncodedFramesHaveTheirShape :
    exec (.pktEncode 1#8 [0x06#8]) State.reset =
      answers (withPacket (encodedPacket .control [0x06#8])) [] ∧
    exec .pktRaw (withPacket (encodedPacket .control [0x06#8])) =
      answers (withPacket (encodedPacket .control [0x06#8])) (encodedPacket .control [0x06#8]).frame := ⟨rfl, rfl⟩

/-- The longest operands, the shortest, and a code of R54 and a byte that is none. -/
theorem witness_ControlAndDataPacketsAreTheirRows : (fill 0xAA#8 15).length ≤ 15 ∧ ([] : Bytes).length ≤ 15 ∧
    (fill 0xAA#8 16).length ≤ 16 ∧ controlCodes.lookup 0x15#8 = some .nack ∧ controlCodes.lookup 0x05#8 = none := by decide

/-- No packet, and a packet for each of the three answers. -/
theorem witness_ClassifySortsThreeWays : State.reset.pkt = none ∧
    (withPacket ackPacket).pkt = some ackPacket ∧ longPacket.metadata.toNat % 32 > 16 ∧
    (¬ (ackPacket.metadata.toNat % 32 > 16 ∨ ackPacket.crcf ≠ crc16Xmodem (ackPacket.metadata :: ackPacket.payload)) ∧
      ¬ (ackPacket.metadata.toNat / 32 = 1 ∧ ackPacket.payload.headD 0#8 = 0x18#8)) ∧
    (¬ (0x8673#16 ≠ crc16Xmodem (0x21#8 :: 0x18#8 :: fill 0xFF#8 15)) ∧ (0x21#8).toNat / 32 = 1) := by decide +kernel

theorem witness_ByteConversionsAreInverse : ([1#8, 2#8, 3#8, 4#8] : Bytes).length = 4 ∧ ([1#8, 2#8] : Bytes).length = 2 ∧
    2 ^ 256 - 1 < 2 ^ 256 ∧ (countUp 1 32).length = 32 := by decide +kernel

/-- Either number at 2^256, and both at 2^256 - 1. -/
theorem witness_SigPackWritesBigEndian :
    (BitVec.ofNat 264 (2 ^ 256)).toNat ≥ 2 ^ 256 ∧ ¬ (BitVec.ofNat 264 (2 ^ 256 - 1)).toNat ≥ 2 ^ 256 := by decide +kernel

theorem witness_SigUnpackReadsBigEndian : sampleSig.length = 64 ∧
    exec (.sigPack 1#264 2#264) State.reset = answers State.reset (signatureBytes (1#264).toNat (2#264).toNat) :=
  ⟨by decide, by
    have h : ¬ ((1#264).toNat ≥ 2 ^ 256 ∨ (2#264).toNat ≥ 2 ^ 256) := by decide +kernel
    simp only [exec, execSigPack, sigIntSize, Nat.reduceMul, h, if_false]
    rfl⟩

theorem witness_HdrPackLaysOutTheFields : sampleSig.length = 64 := by decide

/-- A header whose reserved bytes are all FF, and one whose last byte is not. -/
theorem witness_HdrParseReadsTheFields : sampleHdr.length = 128 ∧ (sampleHdr.set 127 0#8).length = 128 ∧
    (sampleHdr.set 127 0#8)[127]? = some 0#8 := by decide +kernel

theorem witness_HeaderAndSignatureRoundTrip : (BitVec.ofNat 264 (2 ^ 256 - 1)).toNat < 2 ^ 256 ∧ (0#264).toNat < 2 ^ 256 := by
  decide +kernel

theorem witness_ImgBuildLaysOutTheImage : sampleSig.length = 64 ∧ (fill 0#8 (2 ^ 32)).length > 2 ^ 32 - 1 ∧
    ¬ (fill 0#8 (2 ^ 32 - 1)).length > 2 ^ 32 - 1 := by
  simp only [fill_length]; exact ⟨by decide, by decide, by decide⟩

/-- 127 bytes; `payload_size` 49; 48 with `STRICT_PAD`; 48 without, and 33 with (V44). -/
theorem witness_ImgExtractChecksTheBounds :
    (fill 0#8 127).length < 128 ∧
    (¬ (imageWithSize 0x31#8).length < 128 ∧ 128 + unle (((imageWithSize 0x31#8).drop 8).take 4) > 176 ∧
      (imageWithSize 0x31#8).length = 176) ∧
    (unle (((imageWithSize 0x30#8).drop 8).take 4) = 48 ∧ 176 ≠ 128 + 48 + (16 - 48 % 16)) ∧
    (unle ((sampleImage.drop 8).take 4) = 33 ∧ sampleImage.length = 128 + 33 + (16 - 33 % 16)) ∧
    ({ State.reset with strictPad := true } : State).strictPad = true ∧ State.reset.strictPad ≠ true := by decide +kernel

/-- The longest ciphertext whose container a prefix can spell, and the first it cannot. -/
theorem witness_ContJoinPutsTheIvInFront : (countUp 0 16).length = 16 ∧ 16 + (fill 0#8 (2 ^ 64 - 17)).length < 2 ^ 64 ∧
    ¬ 16 + (fill 0#8 (2 ^ 64 - 16)).length < 2 ^ 64 := by
  simp only [fill_length]; exact ⟨by decide, by decide, by decide⟩

/-- Lengths 15, 17, 16 and 32 (V45), and a container that `CONT.JOIN` makes. -/
theorem witness_ContSplitTakesTheIvOff :
    (fill 0#8 15).length < 16 ∧ ((fill 0#8 17).length - 16) % 16 ≠ 0 ∧
    ¬ ((fill 0#8 16).length < 16 ∨ ((fill 0#8 16).length - 16) % 16 ≠ 0) ∧ (fill 0#8 16).length < 2 ^ 64 ∧
    (countUp 0 16).length = 16 ∧ (fill 0xAA#8 16).length % 16 = 0 ∧ (fill 0xAA#8 16).length < 2 ^ 64 := by decide +kernel

theorem witness_ImageRoundTrip : sampleSig.length = 64 ∧ (fill 0#8 (2 ^ 32 - 1)).length ≤ 2 ^ 32 - 1 ∧
    (countUp 0 16).length = 16 ∧ ∃ ct : Bytes, ct.length = sampleImage.length := by
  simp only [fill_length]; exact ⟨by decide, by decide, by decide, sampleImage, rfl⟩

theorem witness_OtherRowsAreNoCommands : Instr.data 31#5 ∈ [Instr.data 31#5, .control 31#5, .ack, .nack, .retx, .synced,
    .updateRequest, .fwSizeRequest, .fwUpdateDone] := by decide

/-- P5's `83`, its `90 00`, and a `CRC.BYTE` without its byte. -/
theorem witness_BadCommandsChangeErrAlone :
    (0x83#8 ∉ commandCodes ∧ ({ busy with commands := [[0x83#8]] }).commands = (0x83#8 :: []) :: []) ∧
    (isOperation .crcInit ∧ Instr.crcInit.WellFormed ∧ [0x00#8] ≠ [] ∧
      ({ busy with commands := [[0x90#8, 0x00#8]] }).commands = (encode .crcInit ++ [0x00#8]) :: []) ∧
    (isOperation (.crcByte 1#8) ∧ (Instr.crcByte 1#8).WellFormed ∧ 0 < 1 ∧ 1 < (encode (.crcByte 1#8)).length ∧
      ({ busy with commands := [[0x91#8]] }).commands = (encode (.crcByte 1#8)).take 1 :: []) :=
  ⟨⟨by decide, rfl⟩, ⟨rfl, trivial, by decide, rfl⟩, ⟨rfl, trivial, by decide, by decide, rfl⟩⟩

theorem witness_EmptyCommandIsIllFormed : ({ busy with commands := [[]] }).commands = [] :: [] := rfl

theorem witness_StepRunsTheDecodedCommand :
    (({ busy with commands := [[0x92#8]] }).commands = [0x92#8] :: [] ∧ decode [0x92#8] = .instr .crcRead) ∧
    (({ busy with commands := [[0x83#8]] }).commands = [0x83#8] :: [] ∧
      decode [0x83#8] = .reject (.undefinedCode 0x83#8)) ∧ busy.commands = [] := by decide

theorem witness_CommandsRunInTheOrderIssued : ∀ i ∈ crcBlock [0x31#8, 0x32#8], i.WellFormed := by
  simp [crcBlock, Instr.WellFormed]

theorem witness_ErrorsLeaveTheStateAlone : exec .pktRaw State.reset = .next { State.reset with err := 4#4, response := [4#8] } ∧
    ([4#8] : Bytes).head? ≠ some 0x00#8 := ⟨rfl, by decide⟩

/-- A step that succeeds, one that clears `ERR`, and one that fails. -/
theorem witness_ErrHoldsTheLastError :
    exec .crcInit busy = .next { busy with crc := 0#16, response := [0x00#8] } ∧
    exec .sysClrerr busy = .next { busy with err := 0#4, response := [0x00#8] } ∧
    exec .pktRaw State.reset = .next { State.reset with err := 4#4, response := [4#8] } := ⟨rfl, rfl, rfl⟩

theorem witness_TheseOperationsNeverRaise : neverRaises .sysReset ∧ neverRaises (.rxPush 0#8) ∧
    neverRaises (.contJoin [] []) := by decide

/-- A query that succeeds, with an old code in `ERR`, and one that fails. -/
theorem witness_QueriesMayBeRepeated : isQuery .pktRaw ∧ exec .pktRaw busy = .next { busy with response := 0#8 :: ackFrame } ∧
    (0#8 :: ackFrame).head? = some 0x00#8 ∧
    exec .pktRaw State.reset = .next { State.reset with err := 4#4, response := [4#8] } := ⟨rfl, rfl, rfl, rfl⟩

/-- An operation for each kind of register it leaves alone. -/
theorem witness_OperationsWriteOnlyTheirRegisters :
    exec (.crcByte 0#8) State.reset = .next { State.reset with crc := crcStep 0#16 0#8, response := [0#8] } ∧
    writesPkt (.crcByte 0#8) = false ∧ writesRx (.crcByte 0#8) = false ∧
    exec (.rxPush 7#8) State.reset = .next { State.reset with rxbuf := [7#8], response := [0#8, 0#8] } ∧
    writesCrc (.rxPush 7#8) = false := ⟨rfl, rfl, rfl, rfl, rfl⟩

theorem witness_OperationsReadOnlyTheirRegisters :
    (readsCrc (.rxPush 7#8) = false ∧ writesCrc (.rxPush 7#8) = false) ∧
    (readsPkt .crcRead = false ∧ writesPkt .crcRead = false) ∧ (readsRx .pktRaw = false ∧ writesRx .pktRaw = false) := by
  decide

theorem witness_SysClrerrClearsErrAndNothingDependsOnIt : Instr.pktRaw ≠ .sysStatus ∧ Instr.sysReset ≠ .sysStatus := by decide

/-- Legal states: reset, and one with every register filled to its bound and a command waiting. -/
theorem witness_EveryStepKeepsTheStateLegal : State.reset.Inv ∧ ({ busy with commands := [[0xA9#8, 0x00#8]] }).Inv := by
  decide

theorem witness_CommandsAreReadByTheirFormats : (fill 0#8 (2 ^ 64 - 1)).length < 2 ^ 64 ∧ ([] : Bytes).length < 2 ^ 64 ∧
    (countUp 0 16).length = 16 ∧ sampleSig.length = 64 ∧ sampleHdr.length = 128 ∧
    (0x06#8 ∉ commandCodes ∧ decode (0x06#8 :: []) = .instr .ack) ∧
    (decode [0x90#8] = .instr .crcInit ∧ decode ([0x90#8] ++ []) = .instr .crcInit) := by
  simp only [fill_length]
  exact ⟨by decide, by decide, by decide, rfl, rfl, ⟨by decide, by decide⟩, ⟨by decide, by decide⟩⟩

theorem witness_DecodeOfEncodeIsTheInstruction : (Instr.imgBuild 1#32 2#32 sampleSig [0xAA#8]).WellFormed ∧
    (Instr.data 31#5).WellFormed ∧ (Instr.sigPack (BitVec.ofNat 264 (2 ^ 264 - 1)) 0#264).WellFormed := by
  simp [Instr.WellFormed, sampleSig, countUp, fill, controlCodeLengths]

theorem witness_DecodedBytesAreTheEncoding : decode [0xA9#8, 0x55#8] = .instr (.rxPush 0x55#8) := by decide

end Sys2Proof.Tests
end

namespace Sys2Proof.Machine

/-! ## Family 10_state: the reset values and the error register

What an instruction that ends in a next state leaves in `ERR` and in the response (10_state R17), derived from
`exec_answers_or_raises`, and what reset leaves (10_state R23). -/

/-- 43_system R130: `SYS.RESET` answers `OK` on the reset registers. -/
theorem exec_sysReset (s : State) : exec .sysReset s = s.resetRegisters.answer [] := rfl

/-- 43_system R132: `SYS.CLRERR` answers `OK` with `ERR` cleared. -/
theorem exec_sysClrerr (s : State) : exec .sysClrerr s = { s with err := 0#4 }.answer [] := rfl

/-- The two operations that clear `ERR` answer `OK` in every state, whatever `ERR` held before. -/
theorem exec_clears_err {i : Instr} {s t : State} (hi : i = .sysReset ∨ i = .sysClrerr) (h : exec i s = .next t) :
    t.response.head? = some okByte ∧ t.err = 0#4 := by
  obtain rfl | rfl := hi
  · rw [exec_sysReset, answer_eq_next_iff] at h
    simp [h]
  · rw [exec_sysClrerr, answer_eq_next_iff] at h
    simp [h]

/-- Every other operation answers `OK` and keeps `ERR`, or raises an error on the state it found. -/
theorem exec_keeps_err_or_raises {i : Instr} {s t : State} (hi : ¬(i = .sysReset ∨ i = .sysClrerr))
    (h : exec i s = .next t) :
    (t.response.head? = some okByte ∧ t.err = s.err) ∨
      ∃ e : ErrorCode, t = { s with err := e.code, response := [e.byte] } := by
  obtain ⟨u, result, hexec, -, -, -, -, -, herr⟩ | ⟨e, hexec⟩ := exec_answers_or_raises i s
  · have hkept : u.err = s.err := herr.resolve_right fun hclear => hi hclear.2
    rw [hexec, answer_eq_next_iff] at h
    exact .inl (by simp [h, hkept])
  · rw [hexec, raise_eq_next_iff] at h
    exact .inr ⟨e, h⟩

/-- What an instruction leaves in the response and in `ERR`, said once: `OK` with `ERR` cleared or kept, or an error's code
in `ERR` and alone in the response. -/
theorem exec_response_and_err {i : Instr} {s t : State} (h : exec i s = .next t) :
    (t.response.head? = some okByte ∧ t.err = if i = .sysReset ∨ i = .sysClrerr then 0#4 else s.err) ∨
      ∃ e : ErrorCode, t.err = e.code ∧ t.response = [e.byte] := by
  split
  case isTrue hi => exact .inl (exec_clears_err hi h)
  case isFalse hi =>
    obtain hok | ⟨e, rfl⟩ := exec_keeps_err_or_raises hi h
    · exact .inl hok
    · exact .inr ⟨e, rfl, rfl⟩

/-- Settles O49: an answer of `OK` and an error's code are told apart by the first byte of the response, since no error's
byte is that of `OK`. -/
theorem errHoldsTheLastError : Obligations.ErrHoldsTheLastError := by
  intro i s t h
  obtain ⟨hok, herr⟩ | ⟨e, herr, hresponse⟩ := exec_response_and_err h
  · exact ⟨fun _ => herr, fun hne => absurd hok hne⟩
  · refine ⟨fun hok => ?_, fun _ => ⟨?_, ?_⟩⟩
    · rw [hresponse, List.head?_cons, Option.some.injEq] at hok
      exact absurd hok (byte_ne_okByte e)
    · rw [hresponse, herr, ErrorCode.byte]
    · rw [herr]
      exact code_ne_zero e

/-- Settles O1: `SYS.RESET` completes in every state, and each register it leaves is the one of the reset state. -/
theorem resetLeavesTheStatedValues : Obligations.ResetLeavesTheStatedValues := by
  refine ⟨reset_crc, rfl, reset_pkt, rfl, reset_rxbuf, reset_err, fun s => ?_⟩
  exact ⟨_, exec_sysReset s, resetRegisters_crc s, resetRegisters_pkt s, resetRegisters_rxbuf s, resetRegisters_err s⟩

end Sys2Proof.Machine

namespace Sys2Proof.Machine

/-! ## Family 20_memory: commands run in the order issued

A step of the block is `exec` of the decoded command on the state with that command taken (20_memory R43). So the run of a
list of encodings needs two facts, each its own part here: an encoding decodes to its instruction (30_encoding R61, R63),
and an instruction acts the same whatever commands are waiting. -/

/-! ### Byte strings: a number and a field read back -/

/-- The `k` bytes of a number below `256 ^ k` spell it. -/
theorem unle_leBytes {k v : Nat} (h : v < 256 ^ k) : unle (leBytes k v) = v := by
  induction k generalizing v with
  | zero => simp only [Nat.pow_zero, Nat.lt_one_iff] at h; simp [leBytes, unle, h]
  | succ k ih =>
    have hquot : v / 256 < 256 ^ k := Nat.div_lt_of_lt_mul (by rwa [Nat.pow_succ'] at h)
    simp only [leBytes, unle, BitVec.toNat_ofNat, ih hquot]
    omega

/-- `be(k, v)` spells a number below `256 ^ k` too. -/
theorem unbe_beBytes {k v : Nat} (h : v < 256 ^ k) : unbe (beBytes k v) = v := by
  rw [unbe, beBytes, List.reverse_reverse, unle_leBytes h]

/-- A slice that begins behind a string and ends with the next one is that next one. -/
theorem slice_middle {pre mid : Bytes} {a b : Nat} (rest : Bytes) (hpre : pre.length = a) (hmid : a + mid.length = b) :
    slice a b (pre ++ (mid ++ rest)) = mid := by
  rw [slice, List.drop_left' hpre, List.take_left' (by omega)]

/-- A string behind its length takes 8 bytes more. -/
theorem counted_length (bs : Bytes) : (counted bs).length = 8 + bs.length := by simp [counted]

/-- Behind the 8 bytes of the length stands the string. -/
theorem drop_counted {pre : Bytes} {k : Nat} (bs : Bytes) (hpre : pre.length + 8 = k) :
    (pre ++ counted bs).drop k = bs := by
  rw [counted, ← List.append_assoc, List.drop_left' (by simpa using hpre)]

/-- The 8 bytes of the length spell it, when `le64` can. -/
theorem unle_slice_counted {pre bs : Bytes} {a b : Nat} (hpre : pre.length = a) (hb : a + 8 = b)
    (hbs : Countable bs) : unle (slice a b (pre ++ counted bs)) = bs.length := by
  rw [counted, slice_middle bs hpre (by simpa using hb), lengthPrefix_eq hbs, unle_leBytes hbs]

end Sys2Proof.Machine

namespace Sys2Proof

open Machine

/-- A 32-bit operand is read back from the place it was written to. -/
theorem field32_le32 {pre : Bytes} {k : Nat} (v : BitVec 32) (rest : Bytes) (hpre : pre.length = k) :
    field32 k (pre ++ (le32 v ++ rest)) = v := by
  have hread : unle (le32 v) = v.toNat := unle_leBytes v.isLt
  rw [field32_eq, slice_middle rest hpre (by simp), hread, BitVec.ofNat_toNat, BitVec.setWidth_eq]

/-- An operand of `SIG.PACK` is read back from the place it was written to. -/
theorem fieldRs_beBytes {pre : Bytes} {k : Nat} (v : BitVec Config.wRs) (rest : Bytes) (hpre : pre.length = k) :
    fieldRs k (pre ++ (beBytes 33 v.toNat ++ rest)) = v := by
  have hlt : v.toNat < 256 ^ 33 := calc
    v.toNat < 2 ^ Config.wRs := v.isLt
    _ = 256 ^ 33 := by rw [show Config.wRs = 8 * 33 from rfl, Nat.pow_mul]
  rw [fieldRs_eq, slice_middle rest hpre (by simp), unbe_beBytes hlt]
  exact (BitVec.ofNat_toNat Config.wRs v).trans (BitVec.setWidth_eq v)

/-! ### Decoding an encoding -/

/-- A command whose operand bytes are as many as its format needs is read as the instruction its row builds of them. -/
theorem decode_of_need {code : Byte} {ops : Bytes} {r : CommandRow} {i : Instr} (hrow : commandRow code = some r)
    (hneed : r.format.need ops = ops.length) (hbuild : r.build ops = i) : decode (code :: ops) = .instr i := by
  simp [decode, hrow, hneed, hbuild]

/-- A format without a counted string needs its fixed number of operand bytes. -/
theorem need_of_fixed {f : Format} {ops : Bytes} (hfixed : f.isCounted = false) (hlen : ops.length = f.fixedLen) :
    f.need ops = ops.length := by
  simp [need_eq, hfixed, hlen]

/-- A format that ends in a counted string needs its other operands and that string behind its length. -/
theorem need_of_counted {f : Format} {pre bs : Bytes} (hcounted : f.isCounted = true)
    (hpre : pre.length + 8 = f.fixedLen) (hbs : Countable bs) :
    f.need (pre ++ counted bs) = (pre ++ counted bs).length := by
  rw [need_eq, if_pos hcounted, unle_slice_counted (by omega) (by omega) hbs, List.length_append, counted_length]
  omega

/-- A DATA row's byte is read as that row unless a control operation code is the same byte: the 32 lengths. -/
theorem decode_encode_data :
    ∀ length : BitVec 5, length ∉ controlCodeLengths → decode (encode (.data length)) = .instr (.data length) := by
  decide

/-- A CONTROL row's byte is read as that row: the 32 lengths. -/
theorem decode_encode_control : ∀ length : BitVec 5, decode (encode (.control length)) = .instr (.control length) := by
  decide

/-- Both numbers of `SIG.PACK` are read back from their 33 bytes. -/
theorem decode_encode_sigPack (r s : BitVec Config.wRs) : decode (encode (.sigPack r s)) = .instr (.sigPack r s) := by
  have hr := fieldRs_beBytes (pre := []) r (beBytes 33 s.toNat) rfl
  have hs := fieldRs_beBytes (pre := beBytes 33 r.toNat) s [] (beBytes_length 33 _)
  rw [List.append_nil] at hs
  rw [encode_sigPack]
  exact decode_of_need rfl (need_of_fixed rfl (by simp)) (congrArg₂ Instr.sigPack hr hs)

/-- The three integers of `HDR.PACK` and the signature behind them are read back from offsets 0, 4, 8 and 12. -/
theorem decode_encode_hdrPack (version deviceId size : BitVec 32) {sig : Bytes} (hsig : sig.length = 64) :
    decode (encode (.hdrPack version deviceId size sig)) = .instr (.hdrPack version deviceId size sig) := by
  have hversion := field32_le32 (pre := []) (k := 0) version (le32 deviceId ++ (le32 size ++ sig)) rfl
  have hdevice := field32_le32 (pre := le32 version) deviceId (le32 size ++ sig) (le32_length _)
  have hsize := field32_le32 (pre := le32 version ++ le32 deviceId) (k := 8) size sig (by simp)
  have htail : (le32 version ++ le32 deviceId ++ le32 size ++ sig).drop 12 = sig := List.drop_left' (by simp)
  simp only [List.nil_append, List.append_assoc] at hversion hdevice hsize htail
  simp only [encode, List.append_assoc]
  refine decode_of_need rfl (need_of_fixed rfl (by simp [hsig])) ?_
  simp only [fieldSize, hdrFixed, Nat.reduceMul, hversion, hdevice, hsize, htail]

/-- The operands of `IMG.BUILD` are read back from offsets 0, 4 and 8, and the body from behind its length. -/
theorem decode_encode_imgBuild (version deviceId : BitVec 32) {sig body : Bytes} (hsig : sig.length = 64)
    (hbody : Countable body) :
    decode (encode (.imgBuild version deviceId sig body)) = .instr (.imgBuild version deviceId sig body) := by
  have hpre : (le32 version ++ le32 deviceId ++ sig).length + 8 = 80 := by simp [hsig]
  have hneed := need_of_counted (f := .i) rfl hpre hbody
  have hversion := field32_le32 (pre := []) (k := 0) version (le32 deviceId ++ (sig ++ counted body)) rfl
  have hdevice := field32_le32 (pre := le32 version) deviceId (sig ++ counted body) (le32_length _)
  have hmid := slice_middle (pre := le32 version ++ le32 deviceId) (a := 8) (b := 72) (counted body) (by simp)
    (by rw [hsig])
  have htail := drop_counted body hpre
  simp only [List.nil_append, List.append_assoc] at hneed hversion hdevice hmid htail
  simp only [encode, List.append_assoc]
  refine decode_of_need rfl hneed ?_
  simp only [fieldSize, sigSize, lenPrefixSize, Nat.reduceMul, Nat.reduceAdd, hversion, hdevice, hmid, htail]

/-- 30_encoding R61, R63: an encoding has the length its code's format requires, and the row of that code reads every
operand back. -/
theorem decode_encode {i : Instr} (h : i.WellFormed) : decode (encode i) = .instr i := by
  cases i with
  | sysReset | sysStatus | sysClrerr | crcInit | crcRead | pktRaw | pktValid | pktType | pktLen | pktPayload | pktCrc
  | ack | nack | retx | synced | updateRequest | fwSizeRequest | fwUpdateDone => rfl
  | crcByte b | pktIsop b | rxPush b => rfl
  | data length => exact decode_encode_data length h
  | control length => exact decode_encode_control length
  | sigPack r s => exact decode_encode_sigPack r s
  | sigUnpack sig | hdrParse sig => exact decode_of_need rfl (need_of_fixed rfl h) rfl
  | hdrPack version deviceId size sig => exact decode_encode_hdrPack version deviceId size h
  | pktDecode bs | imgExtract bs | contSplit bs =>
    exact decode_of_need rfl (need_of_counted (pre := []) rfl rfl h) (congrArg _ (drop_counted (pre := []) bs rfl))
  | pktEncode type payload =>
    exact decode_of_need rfl (need_of_counted (pre := [type]) rfl rfl h)
      (congrArg (Instr.pktEncode type) (drop_counted (pre := [type]) payload rfl))
  | contJoin iv ct =>
    obtain ⟨hiv, hct⟩ := h
    have hpre : iv.length + 8 = 24 := congrArg (· + 8) hiv
    have hhead := slice_middle (pre := []) (a := 0) (b := 16) (counted ct) rfl (by simpa using hiv)
    exact decode_of_need rfl (need_of_counted rfl hpre hct) (congrArg₂ Instr.contJoin hhead (drop_counted ct hpre))
  | imgBuild version deviceId sig body =>
    obtain ⟨hsig, hbody⟩ := h
    exact decode_encode_imgBuild version deviceId hsig hbody

end Sys2Proof

namespace Sys2Proof.Machine

open Sys2Proof.Spec

/-! ### Waiting commands do not matter to an instruction -/

/-- `need PKT` acts the same whatever commands are waiting, when the reading does. -/
theorem needPkt_setCommands (s : State) (cs : List Bytes) {read read' : Packet → Answer}
    (h : ∀ p, read' p = afterwards (fun t => { t with commands := cs }) (read p)) :
    { s with commands := cs }.needPkt read' = afterwards (fun t => { t with commands := cs }) (s.needPkt read) := by
  obtain ⟨hpkt, hs⟩ | ⟨p, hpkt, hs⟩ := needPkt_cases s read
  · rw [hs, needPkt_none (s := { s with commands := cs }) hpkt]; rfl
  · rw [hs, needPkt_some (s := { s with commands := cs }) hpkt, h]

/-- 20_memory R43: an instruction does not see the commands that are waiting, and they stay. -/
theorem exec_setCommands (i : Instr) (s : State) (cs : List Bytes) :
    exec i { s with commands := cs } = afterwards (fun t => { t with commands := cs }) (exec i s) := by
  cases i with
  | sysReset | sysStatus | sysClrerr | crcInit | crcByte _ | crcRead => rfl
  | sigUnpack _ | hdrPack _ _ _ _ | hdrParse _ | contJoin _ _ => rfl
  | data _ | control _ | ack | nack | retx | synced | updateRequest | fwSizeRequest | fwUpdateDone => rfl
  | pktRaw | pktValid | pktIsop _ | pktType | pktLen | pktCrc => exact needPkt_setCommands s cs fun _ => rfl
  | pktPayload => exact needPkt_setCommands s cs fun p => by split <;> rfl
  | pktEncode type payload =>
    simp only [exec, execPktEncode]
    split
    · rfl
    · split <;> rfl
  | pktDecode frame => simp only [exec, execPktDecode]; split <;> rfl
  | rxPush b =>
    have hcount : { s with commands := cs }.rxcnt = s.rxcnt := rfl
    simp only [exec, execRxPush, hcount]
    split <;> rfl
  | sigPack r t => simp only [exec, execSigPack]; split <;> rfl
  | imgBuild version deviceId sig body => simp only [exec, execImgBuild]; split <;> rfl
  | imgExtract plaintext => simp only [exec, execImgExtract]; split <;> rfl
  | contSplit container => simp only [exec, execContSplit]; split <;> rfl

/-! ### The run of a list of encodings -/

/-- A step whose next command is the encoding of a well-formed instruction executes that instruction. -/
theorem step_encode {i : Instr} (h : i.WellFormed) (s : State) (rest : List Bytes) :
    step { s with commands := encode i :: rest } = exec i { s with commands := rest } := by
  simp [step, State.takeCommand, decode_encode h]

/-- Settles O47, by induction on the instructions: the first step executes the first instruction, which neither sees nor
changes the commands that wait behind it, so the rest runs from the state it leaves. -/
theorem commandsRunInTheOrderIssued : Obligations.CommandsRunInTheOrderIssued := by
  intro is
  induction is with
  | nil => exact fun s _ => rfl
  | cons i is ih =>
    intro s hwf
    obtain ⟨hi, his⟩ := List.forall_mem_cons.mp hwf
    have hstep : core.step { s with commands := (i :: is).map encode } =
        afterwards (fun t => { t with commands := is.map encode }) (exec i s) :=
      (step_encode hi s (is.map encode)).trans (exec_setCommands i s (is.map encode))
    simp only [List.length_cons, Host.Core.run, execAll, hstep, exec_setCommands i s []]
    cases exec i s with
    | next t => exact ih t his
    | fault f => rfl
    | refused r => rfl

end Sys2Proof.Machine

namespace Sys2Proof.Machine

/-! ## Family 30_encoding: what the decoder reads, and what a step does with a command it does not read

Each command code with its format's operand bytes is an encoding, and `decode_encode` reads it. That a command is well
formed at one total length (30_encoding R61) is one fact, `eq_nil_of_decode_append`: bytes that decode, with bytes added,
decode only if none were added. It answers for a command with bytes appended and for one cut short alike (R75). -/

/-! ### Byte strings -/

/-- A slice that lies inside a string is the same whatever follows the string. -/
theorem slice_append {a b : Nat} {bs : Bytes} (more : Bytes) (hab : a ≤ b) (hb : b ≤ bs.length) :
    slice a b (bs ++ more) = slice a b bs := by
  rw [slice, slice, List.drop_append_of_le_length (by omega),
    List.take_append_of_le_length (by rw [List.length_drop]; omega)]

/-- A string that `le64` can count stands behind the 8 bytes of its length. -/
theorem counted_eq {bs : Bytes} (h : bs.length < 2 ^ 64) : counted bs = leBytes 8 bs.length ++ bs := by
  rw [counted, lengthPrefix_eq h]

end Sys2Proof.Machine

namespace Sys2Proof

open Machine Spec

/-! ### What the decoder reads -/

/-- A byte that is none of the 24 command codes has no row (30_encoding R63). -/
theorem commandRow_eq_none {code : Byte} (h : code ∉ commandCodes) : commandRow code = none := by
  have hcodes : commandCodes = commandRows.map (·.code) := rfl
  rw [commandRow, List.find?_eq_none]
  intro r hr hcode
  rw [beq_iff_eq] at hcode
  exact h (hcodes ▸ hcode ▸ List.mem_map_of_mem hr)

/-- The rows of a byte that is no command code are no operations (30_encoding R79). -/
theorem isOperation_eq_false_of_otherRow {byte : Byte} {i : Instr} (h : otherRow byte = some i) :
    isOperation i = false := by
  have hcontrol : ∀ r ∈ controlRows, isOperation r.2 = false := by decide
  rw [otherRow] at h
  split at h
  case h_1 j hlookup =>
    obtain ⟨_, _, hrows, -⟩ := List.lookup_eq_some_iff.mp hlookup
    obtain rfl : j = i := Option.some.inj h
    exact hcontrol (byte, j) (by simp [hrows])
  case h_2 =>
    split at h
    · obtain rfl := Option.some.inj h
      rfl
    · obtain ⟨-, hi⟩ := Option.ite_none_right_eq_some.mp h
      obtain rfl := Option.some.inj hi
      rfl

/-- When a command is read as an instruction: its code has a row and the operand bytes are as many as the format needs, or
it is the lone byte of a row that is no operation. -/
theorem decode_cons_eq_instr {code : Byte} {ops : Bytes} {i : Instr} (h : decode (code :: ops) = .instr i) :
    (∃ r, commandRow code = some r ∧ r.format.need ops = ops.length) ∨
      (commandRow code = none ∧ ops = [] ∧ otherRow code = some i) := by
  simp only [decode] at h
  split at h
  case h_1 r hrow =>
    refine .inl ⟨r, hrow, ?_⟩
    by_contra hne
    obtain hlong | hshort := Nat.lt_or_gt_of_ne hne
    · simp [hlong, hlong.not_gt] at h
    · simp [hshort] at h
  case h_2 hrow =>
    split at h
    case h_1 j hother => exact .inr ⟨hrow, rfl, by rw [hother, Decoded.instr.inj h]⟩
    case h_2 => cases h

/-- 30_encoding R63: under no other code is an operation read. -/
theorem isOperation_eq_false_of_decode {code : Byte} {ops : Bytes} {i : Instr} (hcode : code ∉ commandCodes)
    (h : decode (code :: ops) = .instr i) : isOperation i = false := by
  obtain ⟨r, hrow, -⟩ | ⟨-, -, hother⟩ := decode_cons_eq_instr h
  · rw [commandRow_eq_none hcode] at hrow
    cases hrow
  · exact isOperation_eq_false_of_otherRow hother

/-! ### One total length for each command -/

/-- Once the fixed operand bytes are there, what a format needs is settled by them. -/
theorem need_append {f : Format} {ops : Bytes} (more : Bytes) (h : f.fixedLen ≤ ops.length) :
    f.need (ops ++ more) = f.need ops := by
  rw [need_eq, need_eq, slice_append more (Nat.sub_le _ _) h]

/-- Operand bytes as many as a format needs, with bytes added, are as many as it needs only if none were added. -/
theorem eq_nil_of_need_append {f : Format} {ops more : Bytes} (h : f.need ops = ops.length)
    (hmore : f.need (ops ++ more) = (ops ++ more).length) : more = [] := by
  have hfixed : f.fixedLen ≤ ops.length := by rw [← h, need_eq]; exact Nat.le_add_right _ _
  rw [need_append more hfixed, h, List.length_append] at hmore
  exact List.length_eq_zero_iff.mp (by omega)

/-- 30_encoding R61: a command is well formed at one total length only, so no command is the beginning of another. -/
theorem eq_nil_of_decode_append {bytes more : Bytes} {i j : Instr} (h : decode bytes = .instr i)
    (hmore : decode (bytes ++ more) = .instr j) : more = [] := by
  cases bytes with
  | nil => cases h
  | cons code ops =>
    obtain ⟨r, hrow, hneed⟩ | ⟨hrow, rfl, -⟩ := decode_cons_eq_instr h
    · obtain ⟨r', hrow', hneed'⟩ | ⟨hnone, -, -⟩ := decode_cons_eq_instr hmore
      · obtain rfl : r = r' := Option.some.inj (hrow.symm.trans hrow')
        exact eq_nil_of_need_append hneed hneed'
      · rw [hrow] at hnone
        cases hnone
    · obtain ⟨r', hrow', -⟩ | ⟨-, hnil, -⟩ := decode_cons_eq_instr hmore
      · rw [hrow] at hrow'
        cases hrow'
      · exact hnil

/-! ### Each operation under its code -/

/-- Bytes that are an instruction's encoding are read as that instruction. -/
theorem decode_of_encode_eq {bytes : Bytes} {i : Instr} (hwf : i.WellFormed) (h : encode i = bytes) :
    decode bytes = .instr i := by
  rw [← h, decode_encode hwf]

/-- Settles O58: the bytes under each command code are the encoding of the operation, a code without a row gives none
of them, and `eq_nil_of_decode_append` leaves one length. -/
theorem commandsAreReadByTheirFormats : Obligations.CommandsAreReadByTheirFormats := by
  refine ⟨rfl, fun b => ⟨rfl, rfl, rfl⟩, fun bs hbs => ?counted, fun r t => ?sigPack, fun sig hsig => ?sig,
    fun hdr hhdr => decode_of_encode_eq (i := .hdrParse hdr) hhdr rfl,
    fun _ _ _ hcode h => isOperation_eq_false_of_decode hcode h, fun _ _ _ _ h hmore => eq_nil_of_decode_append h hmore⟩
  case counted =>
    simp only [List.append_assoc, ← counted_eq hbs]
    refine ⟨fun type => decode_of_encode_eq (i := .pktEncode type bs) hbs rfl,
      decode_of_encode_eq (i := .pktDecode bs) hbs rfl, decode_of_encode_eq (i := .imgExtract bs) hbs rfl,
      decode_of_encode_eq (i := .contSplit bs) hbs rfl,
      fun iv hiv => decode_of_encode_eq (i := .contJoin iv bs) ⟨hiv, hbs⟩ rfl, fun version deviceId sig hsig => ?_⟩
    exact decode_of_encode_eq (i := .imgBuild version deviceId sig bs) ⟨hsig, hbs⟩ (by simp [encode])
  case sigPack => exact decode_of_encode_eq (i := .sigPack r t) trivial (encode_sigPack r t)
  case sig =>
    exact ⟨decode_of_encode_eq (i := .sigUnpack sig) hsig rfl, fun version deviceId size =>
      decode_of_encode_eq (i := .hdrPack version deviceId size sig) hsig rfl⟩

end Sys2Proof

namespace Sys2Proof.Machine

open Sys2Proof.Spec

/-! ### A command that is no operation -/

/-- 30_encoding R75, R79: a table row that is no operation ends as an undefined code does. -/
theorem exec_of_isOperation_eq_false {i : Instr} (h : isOperation i = false) (s : State) : exec i s = badCommand s := by
  cases i with
  | data _ | control _ | ack | nack | retx | synced | updateRequest | fwSizeRequest | fwUpdateDone => rfl
  | _ => cases h

/-- 30_encoding R75: `ERR_BAD_COMMAND` writes `ERR` and the response and nothing else. -/
theorem badCommand_eq (s : State) : badCommand s = fails s 15#4 := rfl

/-- 30_encoding R75: a command that is read as no operation is taken and ends with `ERR_BAD_COMMAND`. -/
theorem step_of_no_operation {s : State} {bytes : Bytes} {rest : List Bytes} (hcommands : s.commands = bytes :: rest)
    (h : ∀ i, decode bytes = .instr i → isOperation i = false) : step s = fails { s with commands := rest } 15#4 := by
  have htake : s.takeCommand = some (bytes, { s with commands := rest }) :=
    (takeCommand_eq_some_iff _ _ _).mpr ⟨rest, hcommands, rfl⟩
  rw [← badCommand_eq]
  simp only [step, htake]
  cases hdecode : decode bytes with
  | instr i => exact exec_of_isOperation_eq_false (h i hdecode) _
  | reject r => rfl

/-- Settles O44: a code without a row gives no operation, and a command that is a well-formed one with bytes appended or
cut short would be well formed at two lengths. -/
theorem badCommandsChangeErrAlone : Obligations.BadCommandsChangeErrAlone := by
  refine fun s rest => ⟨fun code ops hcode hcommands => ?undefined, fun i extra _ hwf hextra hcommands => ?appended,
    fun i k _ hwf _ hk hcommands => ?cut⟩ <;> refine step_of_no_operation hcommands fun j hj => ?_
  case undefined => exact isOperation_eq_false_of_decode hcode hj
  case appended => exact absurd (eq_nil_of_decode_append (decode_encode hwf) hj) hextra
  case cut =>
    have hwhole : decode ((encode i).take k ++ (encode i).drop k) = .instr i := by
      rw [List.take_append_drop, decode_encode hwf]
    have hnone : (encode i).length ≤ k := List.drop_eq_nil_iff.mp (eq_nil_of_decode_append hj hwhole)
    exact absurd hk hnone.not_gt

end Sys2Proof.Machine

namespace Sys2Proof.Machine

open Sys2Proof.Spec

/-! ## Family 40_crc: the CRC unit

The model runs `crc_step` on 16-bit words and the pseudocode of 40_crc R80 runs it on numbers. The two are tied once for
each function, in the order of the definitions: a round, `k` rounds, a step, the fold over a byte string. -/

/-! ### What the operations answer -/

/-- 40_crc R82: `CRC.INIT` answers `OK` with `CRC` zero. -/
theorem exec_crcInit (s : State) : exec .crcInit s = answers { s with crc := 0x0000#16 } [] := rfl

/-- 40_crc R83: `CRC.BYTE b` answers `OK` with `crc_step` of the register and the byte in `CRC`. -/
theorem exec_crcByte (b : Byte) (s : State) :
    exec (.crcByte b) s = answers { s with crc := crcStep s.crc b } [] := rfl

/-- 40_crc R84: `CRC.READ` answers `le16` of the register and writes none. -/
theorem exec_crcRead (s : State) : exec .crcRead s = answers s (le16 s.crc) := rfl

/-- 20_memory R32: the two bytes of `le16` are the low and the high byte of the word. -/
theorem le16_eq_lowHigh (v : BitVec 16) : le16 v = lowHigh v := by
  have hlow : BitVec.ofNat 8 v.toNat = v.extractLsb' 0 8 := by
    rw [BitVec.extractLsb', Nat.shiftRight_zero]
  have hhigh : BitVec.ofNat 8 (v.toNat / 256) = v.extractLsb' 8 8 := by
    rw [BitVec.extractLsb', Nat.shiftRight_eq_div_pow]
  simp [le16, lowHigh, leBytes, hlow, hhigh]

/-- Settles O5: `CRC.INIT` writes the zero, and `CRC.READ` answers the register's `le16`, its low byte first. -/
theorem crcInitZeroesAndCrcReadAnswers : Obligations.CrcInitZeroesAndCrcReadAnswers :=
  fun s => ⟨exec_crcInit s, by rw [exec_crcRead, le16_eq_lowHigh]⟩

/-! ### The words and the numbers of the pseudocode -/

/-- The pseudocode's mask keeps the low 16 bits. -/
theorem and_mask16 (n : Nat) : n &&& 0xFFFF = n % 2 ^ 16 := Nat.and_two_pow_sub_one_eq_mod n 16

/-- The high bit of a word is the bit the pseudocode tests. -/
theorem getLsbD_high_iff (c : BitVec 16) : c.getLsbD 15 = true ↔ c.toNat / 2 ^ 15 % 2 = 1 := by
  rw [BitVec.getLsbD, Nat.testBit_eq_decide_div_mod_eq, decide_eq_true_iff]

/-- A word shifted left by one is twice its number, masked. -/
theorem shiftLeft_one_toNat (c : BitVec 16) : (c <<< 1).toNat = c.toNat * 2 % 2 ^ 16 := by
  rw [BitVec.toNat_shiftLeft, Nat.shiftLeft_eq, Nat.pow_one]

/-- One round on a word is the pseudocode's round on its number: both test the high bit before the shift. -/
theorem crcRound_toNat (c : BitVec 16) : (crcRound c).toNat = roundOnNumbers c.toNat := by
  simp only [crcRound, roundOnNumbers, getLsbD_high_iff, and_mask16]
  split
  · rw [BitVec.toNat_xor, shiftLeft_one_toNat, Nat.xor_mod_two_pow]
    rfl
  · exact shiftLeft_one_toNat c

/-- `k` rounds on a word are `k` of the pseudocode's rounds on its number. -/
theorem crcRounds_toNat (k : Nat) (c : BitVec 16) : (crcRounds k c).toNat = roundOnNumbers^[k] c.toNat := by
  induction k generalizing c with
  | zero => rfl
  | succ k ih => rw [crcRounds, ih, crcRound_toNat, Function.iterate_succ_apply]

/-- A byte moved into bits [15:8] of a word is 256 times its number. -/
theorem setWidth_shiftLeft_eight_toNat (b : Byte) : (b.setWidth 16 <<< 8).toNat = b.toNat * 256 := by
  have hb : b.toNat < 256 := b.isLt
  rw [BitVec.toNat_shiftLeft, BitVec.toNat_setWidth, Nat.shiftLeft_eq]
  omega

/-- The word the rounds start from is the number the pseudocode's rounds start from. -/
theorem xor_highByte_toNat (c : BitVec 16) (b : Byte) :
    (c ^^^ (b.setWidth 16 <<< 8)).toNat = (c.toNat ^^^ (b.toNat * 256)) &&& 0xFFFF := by
  rw [and_mask16, ← setWidth_shiftLeft_eight_toNat, ← BitVec.toNat_xor, Nat.mod_eq_of_lt (BitVec.isLt _)]

/-- 40_crc R80: `crc_step` on a word is the pseudocode's step on its number. -/
theorem crcStep_toNat (c : BitVec 16) (b : Byte) : (crcStep c b).toNat = crcStepOnNumbers c.toNat b.toNat := by
  rw [crcStep, crcRounds_toNat, xor_highByte_toNat, crcStepOnNumbers]

/-- Settles O6: the register left by `CRC.BYTE` is `crc_step` of the old one, which is the pseudocode's number. -/
theorem crcByteRunsThePseudocode : Obligations.CrcByteRunsThePseudocode :=
  fun b s => ⟨crcStep s.crc b, exec_crcByte b s, crcStep_toNat s.crc b⟩

/-- The fold of `crc_step` from any register value is the fold of the pseudocode's step from its number. -/
theorem foldl_crcStep_toNat (bs : Bytes) (c : BitVec 16) :
    (bs.foldl crcStep c).toNat = bs.foldl (fun n b => crcStepOnNumbers n b.toNat) c.toNat := by
  induction bs generalizing c with
  | nil => rfl
  | cons b bs ih => rw [List.foldl_cons, List.foldl_cons, ih, crcStep_toNat]

/-- Settles O7: the fold of the words from `CRC_INIT` is the fold of the numbers from 0. -/
theorem crcOfAStringIsTheFold : Obligations.CrcOfAStringIsTheFold :=
  fun bs => foldl_crcStep_toNat bs crcInitValue

end Sys2Proof.Machine

namespace Sys2Proof.Machine

open Sys2Proof.Spec

/-! ## Family 41_packet: the packet framer

First the rules: how the fields of a metadata byte, of an encoded packet and of a packet taken from a frame are the numbers
and the bytes the spec names, and what each operation answers in terms of them. The statements are then their cases. -/

/-! ### The metadata byte -/

/-- 30_encoding R51: the length field is the metadata byte modulo 32. -/
@[simp] theorem metaLength_toNat (m : Byte) : (metaLength m).toNat = m.toNat % 32 := by
  rw [metaLength, BitVec.extractLsb'_toNat, Nat.shiftRight_zero]
  rfl

/-- 30_encoding R51: the type field is the metadata byte divided by 32. -/
@[simp] theorem metaType_toNat (m : Byte) : (metaType m).toNat = m.toNat / 32 := by
  have hm : m.toNat < 256 := m.isLt
  rw [metaType, BitVec.extractLsb'_toNat, Nat.shiftRight_eq_div_pow]
  simp only [lenBits, typeBits]
  omega

/-- The length field as a result byte. -/
theorem metaLength_setWidth (m : Byte) : (metaLength m).setWidth 8 = BitVec.ofNat 8 (m.toNat % 32) := by
  rw [← BitVec.ofNat_toNat, metaLength_toNat]

/-- The type field as a result byte. -/
theorem metaType_setWidth (m : Byte) : (metaType m).setWidth 8 = BitVec.ofNat 8 (m.toNat / 32) := by
  rw [← BitVec.ofNat_toNat, metaType_toNat]

/-- The metadata byte of a payload of at most 16 bytes does not wrap: its number is `type * 32 + length`. -/
theorem metaByte_toNat (type : PacketType) {length : Nat} (h : length ≤ 16) :
    (metaByte type length).toNat = type.code.toNat * 32 + length := by
  have htype : type.code.toNat ≤ 1 := by cases type <;> decide
  rw [metaByte_eq, BitVec.toNat_ofNat, Nat.mod_eq_of_lt (by omega)]

/-! ### The packet of a frame -/

/-- Two neighbouring bytes of a string as a number: the first is the low one (20_memory R32). -/
theorem unle_slice_two {bs : Bytes} {k : Nat} (h : k + 2 ≤ bs.length) :
    unle (slice k (k + 2) bs) = (bs.getD k 0#8).toNat + 256 * (bs.getD (k + 1) 0#8).toNat := by
  have hk : k < bs.length := by omega
  have hk' : k + 1 < bs.length := by omega
  have hslice : slice k (k + 2) bs = [bs[k], bs[k + 1]] := by
    rw [slice, List.drop_eq_getElem_cons hk, List.drop_eq_getElem_cons hk', Nat.add_sub_cancel_left]
    rfl
  simp only [hslice, unle, List.getD_eq_getElem _ _ hk, List.getD_eq_getElem _ _ hk', Nat.mul_zero, Nat.add_zero]

/-- 41_packet R91: the metadata is frame byte 0. -/
theorem packetOfFrame_metadata {frame : Bytes} (h : frame.length = 19) :
    frame[0]? = some (packetOfFrame frame).metadata := by
  cases frame with
  | nil => cases h
  | cons b bs => rfl

/-- 41_packet R91: payload byte `i` is frame byte `1 + i`. -/
theorem packetOfFrame_payload_getElem? (frame : Bytes) {i : Nat} (h : i < 16) :
    (packetOfFrame frame).payload[i]? = frame[1 + i]? := by
  have hpayload : (packetOfFrame frame).payload = (frame.drop 1).take 16 := rfl
  rw [hpayload, List.getElem?_take_of_lt h, List.getElem?_drop]

/-- 41_packet R91: the CRC is frame bytes 17 and 18, low byte first. -/
theorem packetOfFrame_crcf_toNat {frame : Bytes} (h : frame.length = 19) :
    (packetOfFrame frame).crcf.toNat = (frame.getD 17 0#8).toNat + 256 * (frame.getD 18 0#8).toNat := by
  have hlow : (frame.getD 17 0#8).toNat < 256 := BitVec.isLt _
  have hhigh : (frame.getD 18 0#8).toNat < 256 := BitVec.isLt _
  have hread := unle_slice_two (bs := frame) (k := 17) (by omega)
  have hcrcf : (packetOfFrame frame).crcf.toNat = unle (slice 17 19 frame) % 2 ^ 16 := BitVec.toNat_ofNat _ _
  rw [hcrcf, hread, Nat.mod_eq_of_lt (by omega)]

/-! ### The questions about a packet -/

/-- 40_crc R81: the recomputed CRC is the pseudocode's number. -/
theorem computedCrc_toNat (p : Packet) : p.computedCrc.toNat = crc16OnNumbers (p.metadata :: p.payload) :=
  crcOfAStringIsTheFold p.covered

/-- 41_packet R93: a packet is valid when the declared length is at most 16 and the stored CRC is the recomputed one. -/
theorem isValid_iff (p : Packet) :
    p.isValid = true ↔ p.metadata.toNat % 32 ≤ 16 ∧ p.crcf = p.computedCrc := by
  simp [Packet.isValid]

/-- 41_packet R94: `is_operation` asks for the type CONTROL and for `op` at `payload[0]`. -/
theorem isOperation_iff (p : Packet) (op : Byte) :
    p.isOperation op = true ↔ p.metadata.toNat / 32 = 1 ∧ p.payload.headD 0#8 = op := by
  have hm : p.metadata.toNat < 256 := p.metadata.isLt
  have htype : (metaType p.metadata).setWidth 8 = PacketType.control.code ↔ p.metadata.toNat / 32 = 1 := by
    rw [metaType_setWidth, BitVec.toNat_eq, BitVec.toNat_ofNat, Nat.mod_eq_of_lt (by omega)]
    rfl
  rw [Packet.isOperation, Bool.and_eq_true, beq_iff_eq, beq_iff_eq, htype]

/-- The first byte of a string that has one. -/
theorem headD_eq_iff {bs : Bytes} (h : 0 < bs.length) (b : Byte) : bs.headD 0#8 = b ↔ bs[0]? = some b := by
  cases bs with
  | nil => cases h
  | cons c cs => simp

/-! ### What the operations answer -/

/-- 41_packet R90: a type operand that is neither 0 nor 1 is `ERR_BAD_TYPE`, whatever the payload. -/
theorem exec_pktEncode_badType {type : Byte} (h : type ≠ 0#8 ∧ type ≠ 1#8) (payload : Bytes) (s : State) :
    exec (.pktEncode type payload) s = fails s 3#4 := by
  simp only [exec, execPktEncode, (packetTypeOf_eq_none_iff type).mpr h]
  rfl

/-- 41_packet R90: with a packet type, more than 16 payload bytes are `ERR_PAYLOAD_SIZE`. -/
theorem exec_pktEncode_tooLong (t : PacketType) {payload : Bytes} (h : payload.length > 16) (s : State) :
    exec (.pktEncode t.code payload) s = fails s 2#4 := by
  simp only [exec, execPktEncode, (packetTypeOf_eq_some_iff _ t).mpr rfl]
  exact if_pos h

/-- 41_packet R90: with a packet type and at most 16 payload bytes the packet is loaded. -/
theorem exec_pktEncode_loads (t : PacketType) {payload : Bytes} (h : payload.length ≤ 16) (s : State) :
    exec (.pktEncode t.code payload) s = answers { s with pkt := some (encodedPacket t payload) } [] := by
  simp only [exec, execPktEncode, (packetTypeOf_eq_some_iff _ t).mpr rfl]
  exact if_neg h.not_gt

/-- 41_packet R91: a frame of another length than 19 is `ERR_FRAME_SIZE`. -/
theorem exec_pktDecode_frameSize {frame : Bytes} (h : frame.length ≠ 19) (s : State) :
    exec (.pktDecode frame) s = fails s 1#4 := if_pos h

/-- 41_packet R91: every frame of 19 bytes is loaded. -/
theorem exec_pktDecode_loads {frame : Bytes} (h : frame.length = 19) (s : State) :
    exec (.pktDecode frame) s = answers { s with pkt := some (packetOfFrame frame) } [] := if_neg (not_not.mpr h)

/-- 41_packet R99: before the last byte of a frame the byte is stored. -/
theorem exec_rxPush_stores (b : Byte) {s : State} (h : s.rxcnt < 18) :
    exec (.rxPush b) s = answers { s with rxbuf := s.rxbuf ++ [b] } [0#8] := if_pos h

/-- 41_packet R99: the last byte of a frame loads the packet of the stored bytes and itself. -/
theorem exec_rxPush_completes (b : Byte) {s : State} (h : s.rxbuf.length = 18) :
    exec (.rxPush b) s =
      answers { s with pkt := some (packetOfFrame (s.rxbuf ++ [b])), rxbuf := [] } [1#8] := by
  have htake : s.rxbuf.take 18 = s.rxbuf := List.take_of_length_le h.le
  have hcount : ¬ s.rxcnt < 18 := h.not_lt
  rw [← htake]
  exact if_neg hcount

/-- 41_packet, 10_state R13: `need PKT` on an empty register ends with `ERR_EMPTY`. -/
theorem needPkt_fails {s : State} (h : s.pkt = none) (read : Packet → Answer) : s.needPkt read = fails s 4#4 :=
  needPkt_none h read

section Loaded

variable {s : State} {p : Packet} (h : s.pkt = some p)
include h

/-- 41_packet R92: `PKT.RAW` answers the frame. -/
theorem exec_pktRaw_loaded : exec .pktRaw s = answers s p.frame := needPkt_some h _

/-- 41_packet R93: `PKT.VALID` answers `is_valid`. -/
theorem exec_pktValid_loaded : exec .pktValid s = answers s [truthByte p.isValid] := needPkt_some h _

/-- 41_packet R94: `PKT.ISOP op` answers `is_operation`. -/
theorem exec_pktIsop_loaded (op : Byte) : exec (.pktIsop op) s = answers s [truthByte (p.isOperation op)] :=
  needPkt_some h _

/-- 41_packet R95: `PKT.TYPE` answers the type field. -/
theorem exec_pktType_loaded : exec .pktType s = answers s [BitVec.ofNat 8 (p.metadata.toNat / 32)] := by
  rw [← metaType_setWidth]
  exact needPkt_some h _

/-- 41_packet R96: `PKT.LEN` answers the length field. -/
theorem exec_pktLen_loaded : exec .pktLen s = answers s [BitVec.ofNat 8 (p.metadata.toNat % 32)] := by
  rw [← metaLength_setWidth]
  exact needPkt_some h _

/-- 41_packet R97: `PKT.PAYLOAD` with a declared length above 16 is `ERR_LENGTH`. -/
theorem exec_pktPayload_length (hlen : p.metadata.toNat % 32 > 16) : exec .pktPayload s = fails s 5#4 := by
  rw [← metaLength_toNat] at hlen
  exact (needPkt_some h _).trans (if_pos hlen)

/-- 41_packet R97: `PKT.PAYLOAD` with a declared length of at most 16 answers it and that many payload bytes. -/
theorem exec_pktPayload_loaded (hlen : p.metadata.toNat % 32 ≤ 16) : exec .pktPayload s =
    answers s (BitVec.ofNat 8 (p.metadata.toNat % 32) :: p.payload.take (p.metadata.toNat % 32)) := by
  rw [← metaLength_setWidth]
  rw [← metaLength_toNat] at hlen ⊢
  exact (needPkt_some h _).trans (if_neg hlen.not_gt)

/-- 41_packet R98: `PKT.CRC` answers the stored CRC. -/
theorem exec_pktCrc_loaded : exec .pktCrc s = answers s (le16 p.crcf) := needPkt_some h _

end Loaded

/-! ### The statements -/

/-- Settles O15: a type operand other than 0 and 1 names no packet type, and the packet `encodedPacket` makes for one of
the two has a metadata byte that does not wrap. -/
theorem pktEncodeLoadsThePacket : Obligations.PktEncodeLoadsThePacket := by
  intro type payload s
  split
  case isTrue hbad => exact exec_pktEncode_badType hbad payload s
  case isFalse hgood =>
    obtain ⟨t, ht⟩ := Option.ne_none_iff_exists'.mp (mt (packetTypeOf_eq_none_iff type).mp hgood)
    obtain rfl := (packetTypeOf_eq_some_iff type t).mp ht
    split
    case isTrue hlong => exact exec_pktEncode_tooLong t hlong s
    case isFalse hfits =>
      have hlen : payload.length ≤ 16 := Nat.le_of_not_gt hfits
      exact ⟨encodedPacket t payload, exec_pktEncode_loads t hlen s, metaByte_toNat t hlen, rfl, rfl⟩

/-- Settles O16: a frame of 19 bytes loads `packetOfFrame`, whose fields are its bytes at their offsets. -/
theorem pktDecodeLoadsEveryFrame : Obligations.PktDecodeLoadsEveryFrame := by
  intro frame s
  split
  case isTrue hsize => exact exec_pktDecode_frameSize hsize s
  case isFalse hsize =>
    have hlen : frame.length = 19 := not_not.mp hsize
    exact ⟨packetOfFrame frame, exec_pktDecode_loads hlen s, packetOfFrame_metadata hlen,
      packetOfFrame_payload_length hlen, fun _ hi => packetOfFrame_payload_getElem? frame hi,
      packetOfFrame_crcf_toNat hlen⟩

/-- Settles O18: `is_valid` compares words, and the recomputed one is the pseudocode's number. -/
theorem pktValidChecksLengthAndCrc : Obligations.PktValidChecksLengthAndCrc := by
  intro s
  cases hpkt : s.pkt with
  | none => exact needPkt_fails hpkt _
  | some p =>
    have hvalid : p.isValid = decide (p.metadata.toNat % 32 ≤ 16 ∧
        p.crcf.toNat = crc16OnNumbers (p.metadata :: p.payload)) := by
      rw [Bool.eq_iff_iff, decide_eq_true_iff, isValid_iff, BitVec.toNat_eq, computedCrc_toNat]
    dsimp only
    rw [exec_pktValid_loaded hpkt, hvalid]

/-- Settles O19: the payload of a legal packet is not empty, so its first byte is `payload[0]`. -/
theorem pktIsopComparesTheFirstPayloadByte : Obligations.PktIsopComparesTheFirstPayloadByte := by
  intro op s hlegal
  cases hpkt : s.pkt with
  | none => exact needPkt_fails hpkt _
  | some p =>
    have hlen : p.payload.length = 16 := hlegal p hpkt
    have hisop : p.isOperation op = decide (p.metadata.toNat / 32 = 1 ∧ p.payload[0]? = some op) := by
      rw [Bool.eq_iff_iff, decide_eq_true_iff, isOperation_iff, headD_eq_iff (by omega)]
    dsimp only
    rw [exec_pktIsop_loaded hpkt op, hisop]

/-- Settles O21: the meaningful bytes are the first of the payload, as many as the declared length says. -/
theorem pktPayloadAnswersTheMeaningfulBytes : Obligations.PktPayloadAnswersTheMeaningfulBytes := by
  intro s hlegal
  cases hpkt : s.pkt with
  | none => exact needPkt_fails hpkt _
  | some p =>
    dsimp only
    split
    case isTrue hlong => exact exec_pktPayload_length hpkt hlong
    case isFalse hfits =>
      have hlen : p.metadata.toNat % 32 ≤ 16 := Nat.le_of_not_gt hfits
      have hpayload : p.payload.length = 16 := hlegal p hpkt
      have htake : (p.payload.take (p.metadata.toNat % 32)).length = p.metadata.toNat % 32 :=
        List.length_take_of_le (hpayload ▸ hlen)
      exact ⟨p.payload.take (p.metadata.toNat % 32), htake.symm ▸ exec_pktPayload_loaded hpkt hlen, htake,
        List.take_prefix _ _⟩

/-- Settles O23: below 18 the byte is stored; at 18 the packet is that of the 18 stored bytes with the new one behind
them, so every field but the CRC's high byte comes from the accumulator. -/
theorem rxPushCutsTheStreamAtNineteen : Obligations.RxPushCutsTheStreamAtNineteen := by
  intro b s hlegal
  split
  case isTrue hbelow => exact exec_rxPush_stores b hbelow
  case isFalse hfull =>
    have hlen : s.rxbuf.length = 18 := Nat.le_antisymm hlegal (Nat.le_of_not_lt hfull)
    have hframe : (s.rxbuf ++ [b]).length = 19 := by simp [hlen]
    have hstored (i : Nat) (hi : i < 18) : (s.rxbuf ++ [b])[i]? = s.rxbuf[i]? :=
      List.getElem?_append_left (hlen ▸ hi)
    refine ⟨packetOfFrame (s.rxbuf ++ [b]), exec_rxPush_completes b hlen, ?metadata,
      packetOfFrame_payload_length hframe, fun i hi => ?payload, ?crc⟩
    case metadata => rw [← hstored 0 (by omega), packetOfFrame_metadata hframe]
    case payload => rw [packetOfFrame_payload_getElem? _ hi, hstored (1 + i) (by omega)]
    case crc =>
      have hlow : (s.rxbuf ++ [b]).getD 17 0#8 = s.rxbuf.getD 17 0#8 := List.getD_append _ _ _ _ (by omega)
      have hhigh : (s.rxbuf ++ [b]).getD 18 0#8 = b := by simp [hlen]
      rw [packetOfFrame_crcf_toNat hframe, hlow, hhigh]

/-- Settles O17: the frame ends in `le16` of the stored CRC, its low byte first. -/
theorem pktRawAnswersTheFrame : Obligations.PktRawAnswersTheFrame := by
  intro s
  cases hpkt : s.pkt with
  | none => exact needPkt_fails hpkt _
  | some p =>
    dsimp only
    rw [exec_pktRaw_loaded hpkt, Packet.frame, Packet.covered, le16_eq_lowHigh]

/-- Settles O20: each operation answers its field of the metadata byte. -/
theorem pktTypeAndLenAnswerTheMetadataFields : Obligations.PktTypeAndLenAnswerTheMetadataFields := by
  intro s
  cases hpkt : s.pkt with
  | none => exact ⟨needPkt_fails hpkt _, needPkt_fails hpkt _⟩
  | some p => exact ⟨exec_pktType_loaded hpkt, exec_pktLen_loaded hpkt⟩

/-- Settles O22: the stored CRC's `le16` is its low byte and its high byte. -/
theorem pktCrcAnswersTheStoredCrc : Obligations.PktCrcAnswersTheStoredCrc := by
  intro s
  cases hpkt : s.pkt with
  | none => exact needPkt_fails hpkt _
  | some p =>
    dsimp only
    rw [exec_pktCrc_loaded hpkt, le16_eq_lowHigh]

end Sys2Proof.Machine

namespace Sys2Proof.Machine

open Sys2Proof.Spec

/-! ## Family 42_header_signature: the header and signature layout processor

The rules come first, a layer for each layout: numbers and their byte strings, the signature, the header, the image, the
container. Each layout has a rule for reading what was written and one for writing what was read; the statements put them
together with what the operations answer. -/

/-! ### Byte strings and their numbers -/

/-- 00_scope section 6: byte `i` of a number, least significant first. -/
theorem leBytes_getElem? {k i : Nat} (v : Nat) (h : i < k) :
    (leBytes k v)[i]? = some (BitVec.ofNat 8 (v / 256 ^ i)) := by
  induction k generalizing v i with
  | zero => omega
  | succ k ih =>
    cases i with
    | zero => simp [leBytes]
    | succ i =>
      rw [leBytes, List.getElem?_cons_succ, ih _ (by omega), Nat.div_div_eq_div_mul, ← Nat.pow_succ']

/-- 00_scope section 6: byte `i` of a number, most significant first. -/
theorem beBytes_getElem? {k i : Nat} (v : Nat) (h : i < k) :
    (beBytes k v)[i]? = some (BitVec.ofNat 8 (v / 256 ^ (k - 1 - i))) := by
  rw [beBytes, List.getElem?_reverse (by simpa using h), leBytes_length, leBytes_getElem? v (by omega)]

/-- Byte `i` of a 32-bit number is its bits from `8 * i` on. -/
theorem le32_getElem? {i : Nat} (v : BitVec 32) (h : i < 4) : (le32 v)[i]? = some (v.extractLsb' (8 * i) 8) := by
  rw [BitVec.extractLsb', Nat.shiftRight_eq_div_pow, Nat.pow_mul]
  exact leBytes_getElem? v.toNat h

/-- A byte string is spelled by its number, least significant byte first. -/
theorem leBytes_unle {bs : Bytes} {k : Nat} (h : bs.length = k) : leBytes k (unle bs) = bs := by
  subst h
  induction bs with
  | nil => rfl
  | cons b bs ih =>
    have hb : b.toNat < 256 := b.isLt
    have hlow : BitVec.ofNat 8 (b.toNat + 256 * unle bs) = b :=
      BitVec.eq_of_toNat_eq (by rw [BitVec.toNat_ofNat]; omega)
    have hrest : (b.toNat + 256 * unle bs) / 256 = unle bs := by omega
    rw [unle, List.length_cons, leBytes, hlow, hrest, ih]

/-- A byte string is spelled by its number, most significant byte first. -/
theorem beBytes_unbe {bs : Bytes} {k : Nat} (h : bs.length = k) : beBytes k (unbe bs) = bs := by
  rw [beBytes, unbe, leBytes_unle (by simpa using h), List.reverse_reverse]

/-- The big-endian number of a byte string is below 256 to its length. -/
theorem unbe_lt (bs : Bytes) : unbe bs < 256 ^ bs.length := by
  simpa [unbe] using unle_lt bs.reverse

/-- The sum of 00_scope section 6 is the number Horner's rule computes. -/
theorem unbe_eq_bigEndian (bs : Bytes) : unbe bs = bigEndian bs := by
  have hfoldr (cs : Bytes) : unle cs = cs.foldr (fun b n => 256 * n + b.toNat) 0 := by
    induction cs with
    | nil => rfl
    | cons c cs ih => rw [unle, List.foldr_cons, ih, Nat.add_comm]
  rw [unbe, hfoldr, List.foldr_reverse, bigEndian]

/-- The number of at most four bytes fits a 32-bit field. -/
theorem ofNat_unle_toNat {bs : Bytes} (h : bs.length ≤ 4) : (BitVec.ofNat 32 (unle bs)).toNat = unle bs := by
  have hbound : unle bs < 2 ^ 32 := calc
    unle bs < 256 ^ bs.length := unle_lt bs
    _ ≤ 256 ^ 4 := Nat.pow_le_pow_right (by decide) h
  rw [BitVec.toNat_ofNat, Nat.mod_eq_of_lt hbound]

/-- Four bytes are spelled by the 32-bit field that holds their number. -/
theorem le32_ofNat_unle {bs : Bytes} (h : bs.length = 4) : le32 (BitVec.ofNat 32 (unle bs)) = bs :=
  (congrArg (leBytes 4) (ofNat_unle_toNat h.le)).trans (leBytes_unle h)

/-- Two neighbouring slices are one. -/
theorem slice_append_slice {a b c : Nat} (bs : Bytes) (hab : a ≤ b) (hbc : b ≤ c) :
    slice a b bs ++ slice b c bs = slice a c bs := by
  have hlen : c - a = (b - a) + (c - b) := by omega
  rw [slice, slice, slice, hlen, List.take_add, List.drop_drop, Nat.add_sub_cancel' hab]

/-- Byte `i` of a string that stands behind another. -/
theorem getElem?_middle {pre mid : Bytes} {a i : Nat} (rest : Bytes) (hpre : pre.length = a) (hi : i < mid.length) :
    (pre ++ (mid ++ rest))[a + i]? = mid[i]? := by
  rw [List.getElem?_append_right (by omega), hpre, Nat.add_sub_cancel_left, List.getElem?_append_left hi]

/-! ### What an operation answers -/

/-- An answer names its result. -/
theorem answers_inj {s : State} {a b : Bytes} : answers s a = answers s b ↔ a = b := by
  constructor
  · intro h
    injection h with hstate
    injection congrArg State.response hstate
  · exact congrArg (answers s)

/-- An error of `SIG.PACK` is no answer. -/
theorem fails_sigEncoding_ne_answers (s : State) (result : Bytes) : fails s 6#4 ≠ answers s result := by
  intro h
  injection h with hstate
  injection congrArg State.response hstate with hbyte
  exact absurd hbyte (by decide)

/-- 42_header_signature R113: a number of more than 32 bytes is `ERR_SIG_ENCODING`. -/
theorem exec_sigPack_fails {r t : BitVec 264} (h : r.toNat ≥ 2 ^ 256 ∨ t.toNat ≥ 2 ^ 256) (s : State) :
    exec (.sigPack r t) s = fails s 6#4 := (execSigPack_eq r t s).trans (if_pos h)

/-- 42_header_signature R113: numbers of at most 32 bytes are answered as the signature. -/
theorem exec_sigPack_answers {r t : BitVec 264} (h : ¬(r.toNat ≥ 2 ^ 256 ∨ t.toNat ≥ 2 ^ 256)) (s : State) :
    exec (.sigPack r t) s = answers s (signatureBytes r.toNat t.toNat) := (execSigPack_eq r t s).trans (if_neg h)

/-- 42_header_signature R114: `SIG.UNPACK` answers the two numbers. -/
theorem exec_sigUnpack (sig : Bytes) (s : State) :
    exec (.sigUnpack sig) s = answers s (signatureBytes (signatureR sig) (signatureS sig)) := rfl

/-- 42_header_signature R115: `HDR.PACK` answers the packed header. -/
theorem exec_hdrPack (version deviceId size : BitVec 32) (sig : Bytes) (s : State) :
    exec (.hdrPack version deviceId size sig) s = answers s (Header.pack ⟨version, deviceId, size, sig⟩) := rfl

/-- 42_header_signature R116: `HDR.PARSE` answers the fields of the parsed header. -/
theorem exec_hdrParse (hdr : Bytes) (s : State) : exec (.hdrParse hdr) s = answers s (parseHeader hdr).fields := rfl

/-- 42_header_signature R120: a malformed image is `ERR_MALFORMED_IMAGE`. -/
theorem exec_imgExtract_fails {plaintext : Bytes} {s : State} (h : extractImage s.strictPad plaintext = none) :
    exec (.imgExtract plaintext) s = fails s 7#4 := by
  simp only [exec, execImgExtract, h]
  rfl

/-- 42_header_signature R120: of another image the fields and the counted body are answered. -/
theorem exec_imgExtract_answers {plaintext body : Bytes} {hdr : Header} {s : State}
    (h : extractImage s.strictPad plaintext = some (hdr, body)) :
    exec (.imgExtract plaintext) s = answers s (hdr.fields ++ counted body) := by
  simp only [exec, execImgExtract, h]
  rfl

/-- 42_header_signature R122: a container without an IV or whole blocks is `ERR_MALFORMED_IMAGE`. -/
theorem exec_contSplit_fails {container : Bytes} (h : container.length < 16 ∨ (container.length - 16) % 16 ≠ 0)
    (s : State) : exec (.contSplit container) s = fails s 7#4 := by
  have hsplit : splitContainer container = none := if_pos h
  simp only [exec, execContSplit, hsplit]
  rfl

/-- 42_header_signature R122: of another container the IV and the counted ciphertext are answered. -/
theorem exec_contSplit_answers {container : Bytes}
    (h : ¬(container.length < 16 ∨ (container.length - 16) % 16 ≠ 0)) (s : State) :
    exec (.contSplit container) s = answers s (container.take 16 ++ counted (container.drop 16)) := by
  have hsplit : splitContainer container = some (container.take 16, container.drop 16) := if_neg h
  simp only [exec, execContSplit, hsplit]
  rfl

/-! ### The signature -/

/-- 30_encoding R57: the signature is the 32 bytes of each number. -/
theorem signatureBytes_eq (r t : Nat) : signatureBytes r t = beBytes 32 r ++ beBytes 32 t := rfl

/-- 30_encoding R57: `r` is the number of the first 32 bytes. -/
theorem signatureR_eq (sig : Bytes) : signatureR sig = unbe (sig.take 32) := rfl

/-- 30_encoding R57: `s` is the number of the other 32 bytes. -/
theorem signatureS_eq {sig : Bytes} (h : sig.length = 64) : signatureS sig = unbe (sig.drop 32) :=
  congrArg unbe (List.take_of_length_le (by simp [h]))

/-- The number of 32 bytes has at most 256 bits. -/
theorem unbe_lt_of_half {half : Bytes} (h : half.length = 32) : unbe half < 2 ^ 256 := calc
  unbe half < 256 ^ half.length := unbe_lt half
  _ = 256 ^ 32 := by rw [h]
  _ = 2 ^ 256 := (Nat.pow_mul 2 8 32).symm

/-- A number of at most 256 bits fits an operand of `SIG.PACK`. -/
theorem ofNat_wRs_toNat {n : Nat} (h : n < 2 ^ 256) : (BitVec.ofNat 264 n).toNat = n := by
  rw [BitVec.toNat_ofNat, Nat.mod_eq_of_lt (by omega)]

/-- Packing what was unpacked gives the signature back. -/
theorem signatureBytes_of_signature {sig : Bytes} (h : sig.length = 64) :
    signatureBytes (signatureR sig) (signatureS sig) = sig := by
  rw [signatureBytes_eq, signatureR_eq, signatureS_eq h, beBytes_unbe (by simp [h]), beBytes_unbe (by simp [h]),
    List.take_append_drop]

/-- Unpacking what was packed gives `r` back. -/
theorem signatureR_signatureBytes {r : Nat} (t : Nat) (h : r < 256 ^ 32) : signatureR (signatureBytes r t) = r := by
  rw [signatureR_eq, signatureBytes_eq, List.take_left' (beBytes_length 32 r), unbe_beBytes h]

/-- Unpacking what was packed gives `s` back. -/
theorem signatureS_signatureBytes (r : Nat) {t : Nat} (h : t < 256 ^ 32) : signatureS (signatureBytes r t) = t := by
  rw [signatureS_eq (by simp [signatureBytes_eq]), signatureBytes_eq, List.drop_left' (beBytes_length 32 r),
    unbe_beBytes h]

/-! ### The header -/

/-- The fields of a header with a whole signature are its first 76 bytes. -/
theorem fields_length {h : Header} (hsig : h.sig.length = 64) : h.fields.length = 76 := by
  simp [Header.fields, hsig]

/-- 42_header_signature R115: behind the fields stand 52 reserved bytes. -/
theorem pack_eq (h : Header) : h.pack = h.fields ++ List.replicate 52 0xFF#8 := rfl

/-- 42_header_signature R116: the fields are read back, whatever bytes stand behind them. -/
theorem parseHeader_fields_append {h : Header} (hsig : h.sig.length = 64) (rest : Bytes) :
    parseHeader (h.fields ++ rest) = h := by
  have hversion := field32_le32 (pre := []) (k := 0) h.version
    (le32 h.deviceId ++ (le32 h.payloadSize ++ (h.sig ++ rest))) rfl
  have hdevice := field32_le32 (pre := le32 h.version) (k := 4) h.deviceId
    (le32 h.payloadSize ++ (h.sig ++ rest)) (by simp)
  have hsize := field32_le32 (pre := le32 h.version ++ le32 h.deviceId) (k := 8) h.payloadSize (h.sig ++ rest)
    (by simp)
  have hsigread := slice_middle (pre := le32 h.version ++ le32 h.deviceId ++ le32 h.payloadSize) (a := 12) (b := 76)
    rest (by simp) (by rw [hsig])
  simp only [field32_eq, List.nil_append, List.append_assoc] at hversion hdevice hsize hsigread
  simp only [parseHeader_eq, Header.fields, List.append_assoc, hversion, hdevice, hsize, hsigread]

/-- 42_header_signature R116: the parsed fields are spelled by the bytes they were read from. -/
theorem parseHeader_fields {hdr : Bytes} (h : 76 ≤ hdr.length) : (parseHeader hdr).fields = hdr.take 76 := by
  have hversion := le32_ofNat_unle (slice_length (a := 0) (b := 4) (bs := hdr) (by omega))
  have hdevice := le32_ofNat_unle (slice_length (a := 4) (b := 8) (bs := hdr) (by omega))
  have hsize := le32_ofNat_unle (slice_length (a := 8) (b := 12) (bs := hdr) (by omega))
  rw [Header.fields, parseHeader_eq]
  dsimp only
  rw [hversion, hdevice, hsize, slice_append_slice hdr (by decide) (by decide),
    slice_append_slice hdr (by decide) (by decide), slice_append_slice hdr (by decide) (by decide)]
  rfl

/-- 42_header_signature R116: packing the parsed fields gives the header back exactly when the reserved bytes are all
`0xFF`. -/
theorem pack_parseHeader_eq_iff {hdr : Bytes} (h : hdr.length = 128) :
    (parseHeader hdr).pack = hdr ↔ ∀ i, 76 ≤ i → i < 128 → hdr[i]? = some 0xFF#8 := by
  rw [pack_eq, parseHeader_fields (by omega)]
  have htake : (hdr.take 76).length = 76 := List.length_take_of_le (by omega)
  constructor
  case mp =>
    intro heq i hi hi'
    rw [← heq, List.getElem?_append_right (by omega), List.getElem?_replicate, if_pos (by omega)]
  case mpr =>
    intro hpad
    have hreserved : List.replicate 52 0xFF#8 = hdr.drop 76 := by
      refine List.ext_getElem? fun i => ?_
      rw [List.getElem?_replicate, List.getElem?_drop]
      split
      case isTrue hi => rw [hpad (76 + i) (by omega) (by omega)]
      case isFalse hi => rw [List.getElem?_eq_none (by omega)]
    rw [hreserved, List.take_append_drop]

/-- 42_header_signature R116: the three integers are the little-endian numbers at offsets 0, 4 and 8. -/
theorem parseHeader_toNat (hdr : Bytes) :
    (parseHeader hdr).version.toNat = unle (hdr.take 4) ∧
    (parseHeader hdr).deviceId.toNat = unle ((hdr.drop 4).take 4) ∧
    (parseHeader hdr).payloadSize.toNat = unle ((hdr.drop 8).take 4) :=
  ⟨ofNat_unle_toNat (List.length_take_le 4 _), ofNat_unle_toNat (List.length_take_le 4 _),
    ofNat_unle_toNat (List.length_take_le 4 _)⟩

/-! ### The image -/

/-- The fields of an image are read from its first 128 bytes. -/
theorem parseHeader_take (plaintext : Bytes) : parseHeader (plaintext.take 128) = parseHeader plaintext := by
  simp [parseHeader_eq, slice, List.drop_take, List.take_take]

/-- 42_header_signature R120: the checks of `IMG.EXTRACT`, every parameter at its value. -/
theorem extractImage_eq (strict : Bool) (plaintext : Bytes) : extractImage strict plaintext =
    if plaintext.length < 128 then none
    else if 128 + unle ((plaintext.drop 8).take 4) > plaintext.length then none
    else if strict = true ∧ plaintext.length ≠ 128 + unle ((plaintext.drop 8).take 4) +
      (16 - unle ((plaintext.drop 8).take 4) % 16) then none
    else some (parseHeader plaintext, (plaintext.drop 128).take (unle ((plaintext.drop 8).take 4))) := by
  obtain ⟨-, -, hsize⟩ := parseHeader_toNat plaintext
  simp only [extractImage, hdrSize, padLength, blockSize, parseHeader_take, hsize, slice,
    Nat.add_sub_cancel_left, and_comm]

/-! ### The statements -/

/-- Settles O33: below 2^256 the answer is the 32 bytes of each number, and byte `i` of 32 is the one 31 - `i` from the
least significant. -/
theorem sigPackWritesBigEndian : Obligations.SigPackWritesBigEndian := by
  intro r t s
  split
  case isTrue hlarge => exact exec_sigPack_fails hlarge s
  case isFalse hfits =>
    refine ⟨signatureBytes r.toNat t.toNat, exec_sigPack_answers hfits s, by simp [signatureBytes_eq], fun i hi => ?_,
      fun i hi => ?_⟩ <;> rw [signatureBytes_eq]
    · rw [List.getElem?_append_left (by simpa using hi), beBytes_getElem? _ hi]
    · rw [List.getElem?_append_right (by simp), beBytes_length, Nat.add_sub_cancel_left, beBytes_getElem? _ hi]

/-- Settles O34: each half spells its number and fits 256 bits, so unpacked numbers can be packed; and only a pack that did
not fail has an answer to unpack. -/
theorem sigUnpackReadsBigEndian : Obligations.SigUnpackReadsBigEndian := by
  constructor
  case left =>
    intro sig s hlen
    have hback := signatureBytes_of_signature hlen
    have hr : signatureR sig < 2 ^ 256 := unbe_lt_of_half (half := sig.take 32) (by simp [hlen])
    have ht : signatureS sig < 2 ^ 256 := signatureS_eq hlen ▸ unbe_lt_of_half (by simp [hlen])
    refine ⟨unbe_eq_bigEndian _, signatureS_eq hlen ▸ unbe_eq_bigEndian _, hr, ht, ?unpack, ?pack⟩
    case unpack => rw [exec_sigUnpack, hback]
    case pack => rw [exec_sigPack_answers (by rw [ofNat_wRs_toNat hr, ofNat_wRs_toNat ht]; omega), ofNat_wRs_toNat hr,
        ofNat_wRs_toNat ht, hback]
  case right =>
    intro r t s sig hexec
    by_cases hlarge : r.toNat ≥ 2 ^ 256 ∨ t.toNat ≥ 2 ^ 256
    · rw [exec_sigPack_fails hlarge] at hexec
      exact absurd hexec (fails_sigEncoding_ne_answers s sig)
    · rw [exec_sigPack_answers hlarge, answers_inj] at hexec
      rw [← hexec]
      exact ⟨signatureR_signatureBytes _ (by omega), signatureS_signatureBytes _ (by omega)⟩

/-- Settles O35: each field stands behind those before it, so its offset is their length. -/
theorem hdrPackLaysOutTheFields : Obligations.HdrPackLaysOutTheFields := by
  intro version deviceId size sig s hsig
  refine ⟨_, exec_hdrPack version deviceId size sig s, ?length, fun i hi => ?version, fun i hi => ?deviceId,
    fun i hi => ?size, fun i hi => ?sig, fun i hi => ?reserved⟩ <;> rw [pack_eq]
  case length => rw [List.length_append, fields_length hsig, List.length_replicate]
  case reserved =>
    rw [List.getElem?_append_right (by rw [fields_length hsig]; omega), fields_length hsig, Nat.add_sub_cancel_left,
      List.getElem?_replicate, if_pos hi]
  all_goals simp only [Header.fields, List.append_assoc]
  case version => rw [List.getElem?_append_left (by simpa using hi), le32_getElem? version hi]
  case deviceId => rw [getElem?_middle _ (le32_length version) (by simpa using hi), le32_getElem? deviceId hi]
  case size =>
    rw [← List.append_assoc, getElem?_middle (a := 8) _ (by simp) (by simpa using hi), le32_getElem? size hi]
  case sig =>
    rw [← List.append_assoc, ← List.append_assoc, getElem?_middle (a := 12) _ (by simp) (by rw [hsig]; exact hi)]

/-- Settles O36: a parsed header's fields are spelled by its first 76 bytes, so a repacked header differs at most in the
reserved bytes; and parsing reads packed fields back. -/
theorem hdrParseReadsTheFields : Obligations.HdrParseReadsTheFields := by
  constructor
  case left =>
    intro hdr s hlen
    obtain ⟨hversion, hdevice, hsize⟩ := parseHeader_toNat hdr
    refine ⟨_, _, _, (parseHeader hdr).sig, exec_hdrParse hdr s, hversion, hdevice, hsize, rfl, ?_⟩
    rw [exec_hdrPack, answers_inj]
    exact pack_parseHeader_eq_iff hlen
  case right =>
    intro version deviceId size sig s hsig
    refine ⟨_, exec_hdrPack version deviceId size sig s, ?_⟩
    rw [exec_hdrParse, pack_eq, parseHeader_fields_append hsig]
    rfl

/-- Settles O39: the three checks are those of `extractImage`; past the second the body has `payload_size` bytes, which
`le64` can count. -/
theorem imgExtractChecksTheBounds : Obligations.ImgExtractChecksTheBounds := by
  intro plaintext s size
  have himage := extractImage_eq s.strictPad plaintext
  split
  case isTrue hshort => exact exec_imgExtract_fails (by rw [himage, if_pos hshort])
  case isFalse hheader =>
    split
    case isTrue hlarge => exact exec_imgExtract_fails (by rw [himage, if_neg hheader, if_pos hlarge])
    case isFalse hfits =>
      split
      case isTrue hpad => exact exec_imgExtract_fails (by rw [himage, if_neg hheader, if_neg hfits, if_pos hpad])
      case isFalse hpad =>
        rw [if_neg hheader, if_neg hfits, if_neg hpad] at himage
        have hbody : ((plaintext.drop 128).take size).length = size :=
          List.length_take_of_le (by rw [List.length_drop]; omega)
        have hsize : size < 2 ^ 64 := by
          obtain ⟨-, -, hread⟩ := parseHeader_toNat plaintext
          have hfield := (parseHeader plaintext).payloadSize.isLt
          omega
        rw [exec_imgExtract_answers himage, parseHeader_fields (by omega),
          counted_eq (by rw [hbody]; exact hsize), hbody, List.append_assoc]

/-- Settles O41: what is answered of a container is its first 16 bytes and the rest, and these are the IV and the
ciphertext that were joined. -/
theorem contSplitTakesTheIvOff : Obligations.ContSplitTakesTheIvOff := by
  constructor
  case left =>
    intro container s hlen
    split
    case isTrue hbad => exact exec_contSplit_fails hbad s
    case isFalse hgood =>
      rw [exec_contSplit_answers hgood, counted_eq (by rw [List.length_drop]; omega), List.length_drop,
        List.append_assoc]
  case right =>
    intro iv ct s hiv hblocks hct
    have hgood : ¬((iv ++ ct).length < 16 ∨ ((iv ++ ct).length - 16) % 16 ≠ 0) := by rw [List.length_append]; omega
    rw [exec_contSplit_answers hgood, List.take_left' hiv, List.drop_left' hiv, counted_eq hct, List.append_assoc]

end Sys2Proof.Machine

namespace Sys2Proof.Machine

open Sys2Proof.Spec

/-! ## Family 43_system: the system operations

`SYS.STATUS` answers a word whose number, in a legal state, is a sum of fields that do not overlap. That `ERR` has no reader
but `SYS.STATUS` is said of answers with `ERR` left out: one rule for each form an operation's meaning has (`need PKT`, a
check), then the instructions. -/

/-! ### The `STATUS` view -/

/-- 43_system R131: `SYS.STATUS` answers `le16` of the view and writes no register. -/
theorem exec_sysStatus (s : State) : exec .sysStatus s = answers s (le16 s.status) := rfl

/-- 10_state R18: in a legal state the fields fit in 16 bits, so the view does not wrap. -/
theorem status_toNat {s : State} (h : s.RxLegal) :
    s.status.toNat = s.rxcnt + 32 * s.pktLoaded.toNat + 256 * s.err.toNat := by
  have hrx : s.rxcnt ≤ 18 := h
  have hloaded : s.pktLoaded.toNat ≤ 1 := Bool.toNat_le _
  have herr : s.err.toNat < 16 := s.err.isLt
  rw [State.status, BitVec.toNat_ofNat, Nat.mod_eq_of_lt (by omega)]

/-- A bit of a word is the one whose number is the word's quotient modulo 2. -/
theorem getLsbD_eq_of_toNat {w : Nat} {v : BitVec w} {k : Nat} {b : Bool} (h : v.toNat / 2 ^ k % 2 = b.toNat) :
    v.getLsbD k = b := by
  rw [BitVec.getLsbD, Nat.testBit_eq_decide_div_mod_eq, h]
  cases b <;> rfl

/-- Settles O3: the view's number is the sum of its fields, each below the place where the next begins, so division and
remainder give each of them back and nothing is left for the reserved bits. -/
theorem sysStatusAnswersTheView : Obligations.SysStatusAnswersTheView := by
  intro s ⟨hlegal, _, _⟩
  have hview := status_toNat hlegal
  have hrx : s.rxcnt ≤ 18 := hlegal
  have hloaded : s.pktLoaded.toNat ≤ 1 := Bool.toNat_le _
  have herr : s.err.toNat < 16 := s.err.isLt
  refine ⟨s.status, by rw [exec_sysStatus, le16_eq_lowHigh], hview, ?rxcnt, hrx, getLsbD_eq_of_toNat ?pktLoaded,
    BitVec.eq_of_toNat_eq ?reserved, BitVec.eq_of_toNat_eq ?err, BitVec.eq_of_toNat_eq ?reservedHigh⟩
  case pktLoaded => omega
  all_goals rw [BitVec.extractLsb'_toNat, Nat.shiftRight_eq_div_pow, hview]
  case rxcnt | err => omega
  case reserved | reservedHigh => rw [BitVec.toNat_ofNat]; omega

/-! ### No operation but `SYS.STATUS` reads `ERR` -/

/-- An answer with `ERR` left out: the response and every other register. -/
abbrev withoutErr (a : Answer) : Answer := afterwards (fun t => { t with err := 0#4 }) a

/-- A check that does not read `ERR` between two answers that do not depend on it. -/
theorem withoutErr_ite {c : Prop} [Decidable c] {a a' b b' : Answer} (ha : withoutErr a = withoutErr a')
    (hb : withoutErr b = withoutErr b') : withoutErr (if c then a else b) = withoutErr (if c then a' else b') := by
  split
  · exact ha
  · exact hb

/-- `need PKT` does not depend on `ERR`, when the reading does not. -/
theorem withoutErr_needPkt (s : State) (e : BitVec 4) {read read' : Packet → Answer}
    (h : ∀ p, withoutErr (read' p) = withoutErr (read p)) :
    withoutErr ({ s with err := e }.needPkt read') = withoutErr (s.needPkt read) := by
  obtain ⟨hpkt, hs⟩ | ⟨p, hpkt, hs⟩ := needPkt_cases s read
  · rw [hs, needPkt_none (s := { s with err := e }) hpkt]; rfl
  · rw [hs, needPkt_some (s := { s with err := e }) hpkt, h]

/-- 43_system R132: no operation's behaviour depends on `ERR`, other than that of `SYS.STATUS`. -/
theorem withoutErr_exec {i : Instr} (hi : i ≠ .sysStatus) (s : State) (e : BitVec 4) :
    withoutErr (exec i { s with err := e }) = withoutErr (exec i s) := by
  cases i with
  | sysStatus => exact absurd rfl hi
  | sysReset | sysClrerr | crcInit | crcByte _ | crcRead => rfl
  | sigUnpack _ | hdrPack _ _ _ _ | hdrParse _ | contJoin _ _ => rfl
  | data _ | control _ | ack | nack | retx | synced | updateRequest | fwSizeRequest | fwUpdateDone => rfl
  | pktRaw | pktValid | pktIsop _ | pktType | pktLen | pktCrc => exact withoutErr_needPkt s e fun _ => rfl
  | pktPayload => exact withoutErr_needPkt s e fun _ => withoutErr_ite rfl rfl
  | pktDecode _ | rxPush _ | sigPack _ _ | imgBuild _ _ _ _ => exact withoutErr_ite rfl rfl
  | pktEncode type payload =>
    simp only [exec, execPktEncode]
    cases packetTypeOf type with
    | none => rfl
    | some t => exact withoutErr_ite rfl rfl
  | imgExtract plaintext =>
    simp only [exec, execImgExtract]
    cases extractImage s.strictPad plaintext with
    | none => rfl
    | some parts => rfl
  | contSplit container =>
    simp only [exec, execContSplit]
    cases splitContainer container with
    | none => rfl
    | some parts => rfl

/-- Settles O4: the clear is `SYS.CLRERR`'s own rule, and the independence is `withoutErr_exec`. -/
theorem sysClrerrClearsErrAndNothingDependsOnIt : Obligations.SysClrerrClearsErrAndNothingDependsOnIt :=
  ⟨exec_sysClrerr, fun _ s e hi => withoutErr_exec hi s e⟩

/-! ### Reset -/

/-- Settles O2: the reset registers are the four written ones at their reset values and the rest as they were. -/
theorem sysResetClearsEveryRegister : Obligations.SysResetClearsEveryRegister := exec_sysReset

end Sys2Proof.Machine

namespace Sys2Proof.Machine

open Sys2Proof.Spec

/-! ## Family 60_exceptions: an error writes `ERR` alone

An instruction that does not answer `OK` raises an error on the state it found (60_exceptions R166 and R167), derived from
`exec_answers_or_raises`. -/

/-- 60_exceptions R167: the model's `raise E` is the obligations' failure with the code of `E`. -/
theorem raise_eq_fails (s : State) (e : ErrorCode) : s.raise e = fails s e.code := rfl

/-- A next state reached by `return v` has `OK` first in its response. -/
theorem response_head?_of_answer {s t : State} {result : Bytes} (h : s.answer result = .next t) :
    t.response.head? = some okByte := by
  rw [answer_eq_next_iff] at h
  rw [h, List.head?_cons]

/-- Settles O48: an instruction answers or raises; an answer begins with `OK`, so what is left is an error raised on the
state the instruction found. -/
theorem errorsLeaveTheStateAlone : Obligations.ErrorsLeaveTheStateAlone := by
  intro i s t hnext hnotOk
  obtain ⟨u, result, hanswer, -⟩ | ⟨e, hraise⟩ := exec_answers_or_raises i s
  · exact absurd (response_head?_of_answer (hanswer ▸ hnext)) hnotOk
  · exact ⟨e.code, code_ne_zero e, hraise.trans (raise_eq_fails s e)⟩

end Sys2Proof.Machine

namespace Sys2Proof.Machine

open Sys2Proof.Spec

/-! ## Family other: what every instruction leaves as it was, and the invariant

`exec_answers_or_raises` says which registers an instruction may have written. Read once for each register, it gives the
columns of 10_state R22; the invariant then has to be looked at only where a register is written. -/

/-! ### The registers an instruction does not write -/

/-- 10_state R22: an instruction keeps each register that it is not one of the writers of, and always `STRICT_PAD` and the
commands. -/
theorem exec_keeps_or_writes {i : Instr} {s t : State} (h : exec i s = .next t) :
    (t.crc = s.crc ∨ writesCrc i = true) ∧ (t.pkt = s.pkt ∨ writesPkt i = true) ∧
      (t.rxbuf = s.rxbuf ∨ writesRx i = true) ∧ t.strictPad = s.strictPad ∧ t.commands = s.commands := by
  obtain ⟨u, result, hexec, hpad, hcommands, hcrc, hpkt, hrx, -⟩ | ⟨e, hexec⟩ := exec_answers_or_raises i s
  · rw [hexec, answer_eq_next_iff] at h
    subst h
    refine ⟨hcrc.imp_right ?crc, hpkt.imp_right ?pkt, hrx.imp_right ?rx, hpad, hcommands⟩
    case crc => rintro (rfl | rfl | ⟨b, rfl⟩) <;> rfl
    case pkt => rintro (rfl | ⟨type, payload, rfl⟩ | ⟨frame, rfl⟩ | ⟨b, rfl⟩) <;> rfl
    case rx => rintro (rfl | ⟨b, rfl⟩) <;> rfl
  · rw [hexec, raise_eq_next_iff] at h
    subst h
    exact ⟨.inl rfl, .inl rfl, .inl rfl, rfl, rfl⟩

/-- Settles O53: an instruction that is no writer of a register keeps it. -/
theorem operationsWriteOnlyTheirRegisters : Obligations.OperationsWriteOnlyTheirRegisters := by
  intro i s t h
  obtain ⟨hcrc, hpkt, hrx, hrest⟩ := exec_keeps_or_writes h
  exact ⟨fun hi => hcrc.resolve_right (by simp [hi]), fun hi => hpkt.resolve_right (by simp [hi]),
    fun hi => hrx.resolve_right (by simp [hi]), hrest⟩

/-! ### Every instruction ends in a next state -/

/-- 60_exceptions R168: every instruction in every state ends in a next state. -/
theorem exec_completes (i : Instr) (s : State) : ∃ t, exec i s = .next t := by
  obtain ⟨u, result, hexec, -⟩ | ⟨e, hexec⟩ := exec_answers_or_raises i s
  · exact ⟨_, hexec⟩
  · exact ⟨_, hexec⟩

/-- Settles O51: what an instruction leaves in the response and in `ERR` is `exec_response_and_err`. -/
theorem everyInstructionAnswers : Obligations.EveryInstructionAnswers := by
  intro i s
  obtain ⟨t, ht⟩ := exec_completes i s
  refine ⟨t, ht, ?_⟩
  obtain ⟨hok, -⟩ | ⟨e, herr, hresponse⟩ := exec_response_and_err ht
  · exact ⟨List.ne_nil_of_mem (List.mem_of_mem_head? hok), .inr (.inl hok)⟩
  · refine ⟨by simp [hresponse], .inr (.inr ⟨?_, ?_⟩)⟩
    · rw [herr]
      exact code_ne_zero e
    · rw [hresponse, herr, ErrorCode.byte]

/-- Settles O50: none of the eleven meanings has a check; `RX.PUSH` has two cases and answers in both. -/
theorem theseOperationsNeverRaise : Obligations.TheseOperationsNeverRaise := by
  intro i s hi
  cases i with
  | sysReset | sysStatus | sysClrerr | crcInit | crcByte _ | crcRead => exact ⟨_, _, rfl, rfl⟩
  | sigUnpack _ | hdrPack _ _ _ _ | hdrParse _ | contJoin _ _ => exact ⟨_, _, rfl, rfl⟩
  | rxPush b =>
    simp only [exec, execRxPush]
    split <;> exact ⟨_, _, rfl, rfl⟩
  | _ => cases hi

/-- An error is no answer. -/
theorem raise_ne_answers (s t : State) (e : ErrorCode) (result : Bytes) : s.raise e ≠ answers t result := by
  intro h
  injection h with hstate
  injection congrArg State.response hstate with hbyte
  exact byte_ne_okByte e hbyte

/-! ### A step -/

/-- 20_memory R43: a step on a command that decodes executes its instruction with the command taken. -/
theorem step_of_instr {s : State} {bytes : Bytes} {rest : List Bytes} {i : Instr} (hcommands : s.commands = bytes :: rest)
    (h : decode bytes = .instr i) : step s = exec i { s with commands := rest } := by
  have htake : s.takeCommand = some (bytes, { s with commands := rest }) :=
    (takeCommand_eq_some_iff _ _ _).mpr ⟨rest, hcommands, rfl⟩
  simp only [step, htake, h]

/-- 30_encoding R75: a command that decodes to no instruction ends with `ERR_BAD_COMMAND`. -/
theorem step_of_reject {s : State} {bytes : Bytes} {rest : List Bytes} {r : Reject} (hcommands : s.commands = bytes :: rest)
    (h : decode bytes = .reject r) : step s = fails { s with commands := rest } 15#4 :=
  step_of_no_operation hcommands fun i hi => by rw [h] at hi; cases hi

/-- 00_scope R5: with no command waiting a step leaves the state. -/
theorem step_of_no_command {s : State} (h : s.commands = []) : step s = .next s := by
  simp only [step, State.takeCommand, h]

/-- Settles O46: the three things a step can meet at the command port. -/
theorem stepRunsTheDecodedCommand : Obligations.StepRunsTheDecodedCommand :=
  fun _ => ⟨fun _ _ _ => step_of_instr, fun _ _ _ => step_of_reject, step_of_no_command⟩

/-- Settles O45: no bytes decode to no instruction. -/
theorem emptyCommandIsIllFormed : Obligations.EmptyCommandIsIllFormed := fun _ _ h => step_of_reject h rfl

/-- Settles O43: none of the nine rows is an operation. -/
theorem otherRowsAreNoCommands : Obligations.OtherRowsAreNoCommands := by
  intro length s i hi
  have hnone : isOperation i = false := by
    simp only [List.mem_cons, List.not_mem_nil, or_false] at hi
    obtain rfl | rfl | rfl | rfl | rfl | rfl | rfl | rfl | rfl := hi <;> rfl
  rw [exec_of_isOperation_eq_false hnone, badCommand_eq]

/-! ### The invariant -/

/-- What a loading operation does in every state alike: it raises one error, or it loads one packet, which has 16 payload
bytes (41_packet R90, R91). -/
def LoadsOrRaises (i : Instr) : Prop :=
  (∃ e : ErrorCode, ∀ s, exec i s = s.raise e) ∨
    ∃ p : Packet, p.payload.length = 16 ∧ ∀ s, exec i s = answers { s with pkt := some p } []

/-- 41_packet R90: `PKT.ENCODE` raises one error in every state, or its type operand is a packet type's code and its payload
fits. -/
theorem pktEncode_raises_or_fits (type : Byte) (payload : Bytes) :
    (∃ e : ErrorCode, ∀ s, exec (.pktEncode type payload) s = s.raise e) ∨
      ∃ t : PacketType, type = t.code ∧ payload.length ≤ 16 := by
  by_cases hbad : type ≠ 0#8 ∧ type ≠ 1#8
  · exact .inl ⟨.badType, exec_pktEncode_badType hbad payload⟩
  · obtain ⟨t, ht⟩ := Option.ne_none_iff_exists'.mp (mt (packetTypeOf_eq_none_iff type).mp hbad)
    obtain rfl := (packetTypeOf_eq_some_iff type t).mp ht
    by_cases hlong : payload.length > 16
    · exact .inl ⟨.payloadSize, exec_pktEncode_tooLong t hlong⟩
    · exact .inr ⟨t, rfl, Nat.le_of_not_gt hlong⟩

/-- 41_packet R90: `PKT.ENCODE` loads or raises. -/
theorem pktEncode_loadsOrRaises (type : Byte) (payload : Bytes) : LoadsOrRaises (.pktEncode type payload) := by
  obtain hraises | ⟨t, rfl, hlen⟩ := pktEncode_raises_or_fits type payload
  · exact .inl hraises
  · exact .inr ⟨_, encodedPacket_payload_length t hlen, exec_pktEncode_loads t hlen⟩

/-- 41_packet R91: `PKT.DECODE` loads or raises. -/
theorem pktDecode_loadsOrRaises (frame : Bytes) : LoadsOrRaises (.pktDecode frame) := by
  by_cases hlen : frame.length = 19
  · exact .inr ⟨_, packetOfFrame_payload_length hlen, exec_pktDecode_loads hlen⟩
  · exact .inl ⟨.frameSize, exec_pktDecode_frameSize hlen⟩

/-- A loading operation leaves a legal packet register legal. -/
theorem pktLegal_of_loadsOrRaises {i : Instr} {s t : State} (hi : LoadsOrRaises i) (h : exec i s = .next t)
    (hs : s.PktLegal) : t.PktLegal := by
  obtain ⟨e, hraise⟩ | ⟨p, hp, hload⟩ := hi
  · rw [hraise, raise_eq_next_iff] at h
    subst h
    exact hs
  · obtain rfl := (answer_eq_next_iff _ t []).mp ((hload s).symm.trans h)
    exact fun q hq => Option.some.inj hq ▸ hp

/-- 41_packet R99: what `RX.PUSH` can do in a legal state: store the byte, or complete a frame of 19 bytes. -/
theorem exec_rxPush_cases (b : Byte) {s : State} (hs : s.RxLegal) :
    (s.rxbuf.length < 18 ∧ exec (.rxPush b) s = answers { s with rxbuf := s.rxbuf ++ [b] } [0#8]) ∨
      (s.rxbuf.length = 18 ∧ exec (.rxPush b) s =
        answers { s with pkt := some (packetOfFrame (s.rxbuf ++ [b])), rxbuf := [] } [1#8]) := by
  obtain hbelow | hfull : s.rxbuf.length < 18 ∨ s.rxbuf.length = 18 := Nat.lt_or_eq_of_le hs
  · exact .inl ⟨hbelow, exec_rxPush_stores b hbelow⟩
  · exact .inr ⟨hfull, exec_rxPush_completes b hfull⟩

/-- `RX.PUSH` leaves a legal accumulator and a legal packet register legal. -/
theorem exec_rxPush_keeps_legal {b : Byte} {s t : State} (h : exec (.rxPush b) s = .next t) (hrx : s.RxLegal)
    (hpkt : s.PktLegal) : t.RxLegal ∧ t.PktLegal := by
  obtain ⟨hlen, hexec⟩ | ⟨hlen, hexec⟩ := exec_rxPush_cases b hrx
  · obtain rfl := (answer_eq_next_iff _ t [0#8]).mp (hexec.symm.trans h)
    refine ⟨?_, hpkt⟩
    simp only [State.RxLegal, State.rxcnt, List.length_append, List.length_singleton, frameSize]
    omega
  · obtain rfl := (answer_eq_next_iff _ t [1#8]).mp (hexec.symm.trans h)
    exact ⟨Nat.zero_le _, fun q hq => Option.some.inj hq ▸ packetOfFrame_payload_length (by simp [hlen])⟩

/-- `ERR` holds a code of 60_exceptions R160 after every instruction. -/
theorem exec_keeps_errLegal {i : Instr} {s t : State} (h : exec i s = .next t) (hs : s.ErrLegal) : t.ErrLegal := by
  obtain ⟨-, herr⟩ | ⟨e, herr, -⟩ := exec_response_and_err h
  · rw [State.ErrLegal, herr]
    split
    · decide
    · exact hs
  · rw [State.ErrLegal, herr]
    exact code_legal e

/-- The invariant is kept by every instruction: a register an instruction does not write is as it was, and the four that
write `PKT` or the accumulator leave them legal. -/
theorem exec_keeps_inv {i : Instr} {s t : State} (h : exec i s = .next t) (hs : s.Inv) : t.Inv := by
  obtain ⟨hrx, hpkt, herr⟩ := hs
  obtain ⟨-, hpktFrame, hrxFrame, -⟩ := operationsWriteOnlyTheirRegisters i s t h
  have hrxKept (hi : writesRx i = false) : t.RxLegal := by
    rw [State.RxLegal, State.rxcnt, hrxFrame hi]
    exact hrx
  have hpktKept (hi : writesPkt i = false) : t.PktLegal := by
    rw [State.PktLegal, hpktFrame hi]
    exact hpkt
  rw [State.Inv, ← and_assoc]
  refine ⟨?_, exec_keeps_errLegal h herr⟩
  cases i with
  | sysReset =>
    obtain rfl := (answer_eq_next_iff _ t []).mp h
    exact ⟨Nat.zero_le _, fun q hq => by cases hq⟩
  | rxPush b => exact exec_rxPush_keeps_legal h hrx hpkt
  | pktEncode type payload => exact ⟨hrxKept rfl, pktLegal_of_loadsOrRaises (pktEncode_loadsOrRaises type payload) h hpkt⟩
  | pktDecode frame => exact ⟨hrxKept rfl, pktLegal_of_loadsOrRaises (pktDecode_loadsOrRaises frame) h hpkt⟩
  | _ => exact ⟨hrxKept rfl, hpktKept rfl⟩

/-- Settles O56: a step leaves the state, executes an instruction on the state with the command taken, or raises
`ERR_BAD_COMMAND` on it; the commands are no part of the invariant. -/
theorem everyStepKeepsTheStateLegal : Obligations.EveryStepKeepsTheStateLegal := by
  intro s hs
  cases hcommands : s.commands with
  | nil => exact ⟨s, step_of_no_command hcommands, hs⟩
  | cons bytes rest =>
    have htaken : { s with commands := rest }.Inv := hs
    cases hdecode : decode bytes with
    | instr i =>
      obtain ⟨t, ht⟩ := exec_completes i { s with commands := rest }
      exact ⟨t, (step_of_instr hcommands hdecode).trans ht, exec_keeps_inv ht htaken⟩
    | reject r =>
      obtain ⟨hrx, hpkt, -⟩ := htaken
      exact ⟨_, step_of_reject hcommands hdecode, hrx, hpkt, code_legal .badCommand⟩

/-- Settles O55: the reset values are legal. -/
theorem resetIsLegal : Obligations.ResetIsLegal := by
  refine ⟨⟨Nat.zero_le _, fun p hp => ?_, .inl (Nat.zero_le _)⟩, .inl reset_response⟩
  rw [reset_pkt] at hp
  cases hp

end Sys2Proof.Machine

namespace Sys2Proof

open Machine Spec

/-! ## Family other: decoding and encoding are inverse

`decode_encode` is the one direction. For the other it is enough that bytes that decode are the encoding of some well-formed
instruction: by `decode_encode` that is the one they decode to. For each row this asks what operand bytes of the right length
look like, which its format says alone. -/

/-- Settles O59: the decoder reads every encoding back. -/
theorem decodeOfEncodeIsTheInstruction : Obligations.DecodeOfEncodeIsTheInstruction := fun _ => decode_encode

/-! ### Operand bytes of the right length -/

/-- 30_encoding R61: under this code, operand bytes as many as the format needs are those of a well-formed instruction. -/
def Spells (code : Byte) (f : Format) : Prop :=
  ∀ ops : Bytes, f.need ops = ops.length → ∃ i : Instr, i.WellFormed ∧ encode i = code :: ops

/-- A format without a counted string has its fixed number of operand bytes. -/
theorem length_of_fixed {f : Format} {ops : Bytes} (hfixed : f.isCounted = false) (h : f.need ops = ops.length) :
    ops.length = f.fixedLen := by
  rw [← h, need_eq, hfixed]
  simp

/-- Eight bytes spell a number of at most 64 bits. -/
theorem unle_lt_of_eight {bs : Bytes} (h : bs.length = 8) : unle bs < 2 ^ 64 := calc
  unle bs < 256 ^ bs.length := unle_lt bs
  _ = 256 ^ 8 := by rw [h]
  _ = 2 ^ 64 := (Nat.pow_mul 2 8 8).symm

/-- Eight bytes are `le64` of the number they spell. -/
theorem lengthPrefix_unle {bs : Bytes} (h : bs.length = 8) : lengthPrefix (unle bs) = bs := by
  rw [lengthPrefix_eq (unle_lt_of_eight h), leBytes_unle h]

/-- A format that ends in a counted string has its other operand bytes and that string behind its length. -/
theorem eq_append_counted {f : Format} {ops : Bytes} (hcounted : f.isCounted = true) (hfixed : 8 ≤ f.fixedLen)
    (h : f.need ops = ops.length) :
    ∃ pre bs : Bytes, pre.length + 8 = f.fixedLen ∧ Countable bs ∧ ops = pre ++ counted bs := by
  have hlen : ops.length = f.fixedLen + unle (slice (f.fixedLen - 8) f.fixedLen ops) := by
    rw [← h, need_eq, if_pos hcounted]
  have hprefix : (slice (f.fixedLen - 8) f.fixedLen ops).length = 8 := by
    rw [slice_length (by omega)]
    omega
  have hbs : (ops.drop f.fixedLen).length = unle (slice (f.fixedLen - 8) f.fixedLen ops) := by
    rw [List.length_drop]
    omega
  have hsplit : ops = ops.take (f.fixedLen - 8) ++ (slice (f.fixedLen - 8) f.fixedLen ops ++ ops.drop f.fixedLen) := by
    have hdrop : ops.drop f.fixedLen = (ops.drop (f.fixedLen - 8)).drop (f.fixedLen - (f.fixedLen - 8)) := by
      rw [List.drop_drop, Nat.add_sub_cancel' (Nat.sub_le _ _)]
    rw [slice, hdrop, List.take_append_drop, List.take_append_drop]
  refine ⟨ops.take (f.fixedLen - 8), ops.drop f.fixedLen, ?pre, ?countable, ?split⟩
  case pre =>
    rw [List.length_take_of_le (by omega)]
    omega
  case countable =>
    rw [Countable, hbs]
    exact unle_lt_of_eight hprefix
  case split => rw [counted, hbs, lengthPrefix_unle hprefix, ← hsplit]

/-! ### The rows of the command codes -/

/-- A code alone. -/
theorem spells_n {code : Byte} {i : Instr} (hwf : i.WellFormed) (h : encode i = [code]) : Spells code .n := by
  intro ops hops
  obtain rfl := List.length_eq_zero_iff.mp (length_of_fixed rfl hops)
  exact ⟨i, hwf, h⟩

/-- A code and a byte. -/
theorem spells_b {code : Byte} {i : Byte → Instr} (hwf : ∀ b, (i b).WellFormed) (h : ∀ b, encode (i b) = [code, b]) :
    Spells code .b := by
  intro ops hops
  obtain ⟨b, rfl⟩ := List.length_eq_one_iff.mp (length_of_fixed rfl hops)
  exact ⟨i b, hwf b, h b⟩

/-- A code and a counted string. -/
theorem spells_v {code : Byte} {i : Bytes → Instr} (hwf : ∀ bs, Countable bs → (i bs).WellFormed)
    (h : ∀ bs, encode (i bs) = code :: counted bs) : Spells code .v := by
  intro ops hops
  obtain ⟨pre, bs, hpre, hbs, rfl⟩ := eq_append_counted rfl (by decide) hops
  obtain rfl := List.length_eq_zero_iff.mp (Nat.add_right_cancel hpre)
  exact ⟨i bs, hwf bs hbs, h bs⟩

/-- `PKT.ENCODE`: the type and the counted payload. -/
theorem spells_pktEncode : Spells 0xA0#8 .e := by
  intro ops hops
  obtain ⟨pre, payload, hpre, hpayload, rfl⟩ := eq_append_counted rfl (by decide) hops
  obtain ⟨type, rfl⟩ := List.length_eq_one_iff.mp (Nat.add_right_cancel (m := 8) hpre)
  exact ⟨.pktEncode type payload, hpayload, rfl⟩

/-- A number of 33 bytes is spelled by the operand of `SIG.PACK` that holds it. -/
theorem beBytes_ofNat_unbe {bs : Bytes} (h : bs.length = 33) :
    beBytes 33 (BitVec.ofNat Config.wRs (unbe bs)).toNat = bs := by
  have hlt : unbe bs < 2 ^ Config.wRs := calc
    unbe bs < 256 ^ bs.length := unbe_lt bs
    _ = 2 ^ Config.wRs := by rw [h, show Config.wRs = 8 * 33 from rfl, Nat.pow_mul]
  rw [BitVec.toNat_ofNat, Nat.mod_eq_of_lt hlt, beBytes_unbe h]

/-- `SIG.PACK`: two numbers of 33 bytes. -/
theorem spells_sigPack : Spells 0xB0#8 .s := by
  intro ops hops
  have hlen : ops.length = 66 := length_of_fixed rfl hops
  refine ⟨.sigPack (.ofNat _ (unbe (ops.take 33))) (.ofNat _ (unbe (ops.drop 33))), trivial, ?_⟩
  rw [encode_sigPack, beBytes_ofNat_unbe (by simp [hlen]), beBytes_ofNat_unbe (by simp [hlen]), List.take_append_drop]

/-- `HDR.PACK`: three integers and a signature, which are the fields parsed of them. -/
theorem spells_hdrPack : Spells 0xB2#8 .h := by
  intro ops hops
  have hlen : ops.length = 76 := length_of_fixed rfl hops
  have hfields : (parseHeader ops).fields = ops := by rw [parseHeader_fields hlen.ge, List.take_of_length_le hlen.le]
  exact ⟨.hdrPack (parseHeader ops).version (parseHeader ops).deviceId (parseHeader ops).payloadSize (parseHeader ops).sig,
    slice_length hlen.ge, congrArg _ hfields⟩

/-- `IMG.BUILD`: two integers, a signature and the counted body. -/
theorem spells_imgBuild : Spells 0xB4#8 .i := by
  intro ops hops
  obtain ⟨pre, body, hpre, hbody, rfl⟩ := eq_append_counted rfl (by decide) hops
  have hlen : pre.length = 72 := Nat.add_right_cancel (m := 8) hpre
  have hversion := le32_ofNat_unle (slice_length (a := 0) (b := 4) (bs := pre) (by omega))
  have hdevice := le32_ofNat_unle (slice_length (a := 4) (b := 8) (bs := pre) (by omega))
  have hall : slice 0 72 pre = pre := List.take_of_length_le hlen.le
  refine ⟨.imgBuild (.ofNat 32 (unle (slice 0 4 pre))) (.ofNat 32 (unle (slice 4 8 pre))) (slice 8 72 pre) body,
    ⟨slice_length hlen.ge, hbody⟩, ?_⟩
  rw [encode, hversion, hdevice, slice_append_slice pre (by decide) (by decide),
    slice_append_slice pre (by decide) (by decide), hall]

/-- `CONT.JOIN`: an IV and the counted ciphertext. -/
theorem spells_contJoin : Spells 0xB6#8 .j := by
  intro ops hops
  obtain ⟨iv, ct, hiv, hct, rfl⟩ := eq_append_counted rfl (by decide) hops
  exact ⟨.contJoin iv ct, ⟨Nat.add_right_cancel (m := 8) hiv, hct⟩, rfl⟩

/-- 30_encoding R61, R63: each row's operand bytes of the right length are those of a well-formed instruction. -/
theorem spells_of_mem_commandRows : ∀ r ∈ commandRows, Spells r.code r.format := by
  have hn {code : Byte} (i : Instr) (hwf : i.WellFormed) (h : encode i = [code]) := spells_n hwf h
  simp only [commandRows, List.forall_mem_cons]
  refine ⟨hn .sysReset trivial rfl, hn .sysStatus trivial rfl, hn .sysClrerr trivial rfl, hn .crcInit trivial rfl,
    spells_b (i := .crcByte) (fun _ => trivial) (fun _ => rfl), hn .crcRead trivial rfl, spells_pktEncode,
    spells_v (i := .pktDecode) (fun _ h => h) (fun _ => rfl), hn .pktRaw trivial rfl, hn .pktValid trivial rfl,
    spells_b (i := .pktIsop) (fun _ => trivial) (fun _ => rfl), hn .pktType trivial rfl, hn .pktLen trivial rfl,
    hn .pktPayload trivial rfl, hn .pktCrc trivial rfl, spells_b (i := .rxPush) (fun _ => trivial) (fun _ => rfl),
    spells_sigPack, fun sig hsig => ⟨.sigUnpack sig, length_of_fixed rfl hsig, rfl⟩, spells_hdrPack,
    fun hdr hhdr => ⟨.hdrParse hdr, length_of_fixed rfl hhdr, rfl⟩, spells_imgBuild,
    spells_v (i := .imgExtract) (fun _ h => h) (fun _ => rfl), spells_contJoin,
    spells_v (i := .contSplit) (fun _ h => h) (fun _ => rfl), by simp⟩

/-! ### The rows that are no operations -/

/-- 30_encoding R79: a byte that is none of the control codes and has the type DATA is the encoding of a well-formed DATA
row: the 256 bytes. -/
theorem encode_data_of_byte : ∀ byte : Byte, controlRows.lookup byte = none → byte >>> 5 = 0#8 →
    encode (.data (byte.extractLsb' 0 5)) = [byte] ∧ byte.extractLsb' 0 5 ∉ controlCodeLengths := by
  decide

/-- 30_encoding R79: a byte of the type CONTROL is the encoding of a CONTROL row: the 256 bytes. -/
theorem encode_control_of_byte :
    ∀ byte : Byte, byte >>> 5 = 1#8 → encode (.control (byte.extractLsb' 0 5)) = [byte] := by
  decide

/-- A byte that is the word of one of the nine rows is the encoding of that row, which is well formed. -/
theorem encode_of_otherRow {byte : Byte} {i : Instr} (h : otherRow byte = some i) :
    i.WellFormed ∧ encode i = [byte] := by
  rw [otherRow] at h
  split at h
  case h_1 j hlookup =>
    obtain rfl := Option.some.inj h
    obtain ⟨before, after, hrows, -⟩ := List.lookup_eq_some_iff.mp hlookup
    have hmem : (byte, j) ∈ controlRows := by simp [hrows]
    simp only [controlRows, List.mem_cons, List.not_mem_nil, or_false, Prod.mk.injEq] at hmem
    obtain ⟨rfl, rfl⟩ | ⟨rfl, rfl⟩ | ⟨rfl, rfl⟩ | ⟨rfl, rfl⟩ | ⟨rfl, rfl⟩ | ⟨rfl, rfl⟩ | ⟨rfl, rfl⟩ := hmem <;>
      exact ⟨trivial, rfl⟩
  case h_2 hlookup =>
    split at h
    case isTrue hdata =>
      obtain rfl := Option.some.inj h
      exact (encode_data_of_byte byte hlookup hdata).symm
    case isFalse =>
      obtain ⟨hcontrol, hi⟩ := Option.ite_none_right_eq_some.mp h
      obtain rfl := Option.some.inj hi
      exact ⟨trivial, encode_control_of_byte byte hcontrol⟩

/-! ### The statements -/

/-- 30_encoding R61: bytes that decode are the encoding of a well-formed instruction. -/
theorem exists_encode_eq_of_decode {bytes : Bytes} {i : Instr} (h : decode bytes = .instr i) :
    ∃ j : Instr, j.WellFormed ∧ encode j = bytes := by
  cases bytes with
  | nil => cases h
  | cons code ops =>
    obtain ⟨r, hrow, hneed⟩ | ⟨-, rfl, hother⟩ := decode_cons_eq_instr h
    · have hcode : r.code = code := by simpa using List.find?_some hrow
      exact hcode ▸ spells_of_mem_commandRows r (List.mem_of_find?_eq_some hrow) ops hneed
    · exact ⟨i, encode_of_otherRow hother⟩

/-- Settles O60: the bytes are some instruction's encoding, and that instruction is the one they decode to. -/
theorem decodedBytesAreTheEncoding : Obligations.DecodedBytesAreTheEncoding := by
  intro bytes i h
  obtain ⟨j, hwf, rfl⟩ := exists_encode_eq_of_decode h
  obtain rfl : j = i := Decoded.instr.inj ((decode_encode hwf).symm.trans h)
  exact ⟨rfl, hwf⟩

/-- Settles O57: the rows' words, their zero operands read by `decode`. -/
theorem tableWordsDecode : Obligations.TableWordsDecode := by
  refine ⟨?_, ?_, ?_⟩ <;> decide +kernel

end Sys2Proof

namespace Sys2Proof.Machine

open Sys2Proof.Spec

/-! ## Family other: the arithmetic of the CRC unit

A round is linear over XOR and takes only 0 to 0, so rounds can be told apart by their results; and eight rounds of a word
whose high byte is 0 are a shift. The laws of 40_crc R85 to R88 follow from these two facts. -/

/-! ### Rounds are linear and lose nothing -/

/-- A word XORed in twice is gone. -/
theorem xor_xor_cancel {w : Nat} (a x : BitVec w) : a ^^^ x ^^^ x = a := by
  rw [BitVec.xor_assoc, BitVec.xor_self, BitVec.xor_zero]

/-- A round is linear over XOR: the polynomial comes in once for each high bit, and twice is not at all. -/
theorem crcRound_xor (c d : BitVec 16) : crcRound (c ^^^ d) = crcRound c ^^^ crcRound d := by
  have htwice : c <<< 1 ^^^ crcPoly ^^^ (d <<< 1 ^^^ crcPoly) = c <<< 1 ^^^ d <<< 1 := by
    rw [← BitVec.xor_assoc, BitVec.xor_assoc (c <<< 1), BitVec.xor_comm crcPoly, ← BitVec.xor_assoc, xor_xor_cancel]
  simp only [crcRound, BitVec.getLsbD_xor, BitVec.shiftLeft_xor_distrib]
  cases c.getLsbD 15 <;> cases d.getLsbD 15
  case true.true => exact htwice.symm
  case true.false =>
    show c <<< 1 ^^^ d <<< 1 ^^^ crcPoly = c <<< 1 ^^^ crcPoly ^^^ d <<< 1
    rw [BitVec.xor_assoc, BitVec.xor_comm (d <<< 1), ← BitVec.xor_assoc]
  case false.true => exact BitVec.xor_assoc _ _ _
  case false.false => rfl

/-- `k` rounds are linear over XOR. -/
theorem crcRounds_xor (k : Nat) (c d : BitVec 16) : crcRounds k (c ^^^ d) = crcRounds k c ^^^ crcRounds k d := by
  induction k generalizing c d with
  | zero => rfl
  | succ k ih => simp only [crcRounds, crcRound_xor, ih]

/-- A round takes only 0 to 0: a result with the polynomial in it is odd, and a shift without it lost no bit. -/
theorem eq_zero_of_crcRound {c : BitVec 16} (h : crcRound c = 0#16) : c = 0#16 := by
  rw [crcRound] at h
  split at h
  case isTrue =>
    have hodd : (c <<< 1 ^^^ crcPoly).getLsbD 0 = true := by simp
    rw [h] at hodd
    cases hodd
  case isFalse hhigh =>
    have hsmall : c.toNat < 2 ^ 15 := by
      rw [getLsbD_high_iff] at hhigh
      have hword : c.toNat < 2 ^ 16 := c.isLt
      omega
    have hshift := shiftLeft_one_toNat c
    rw [h, BitVec.toNat_ofNat] at hshift
    exact BitVec.eq_of_toNat_eq (by rw [BitVec.toNat_ofNat]; omega)

/-- `k` rounds take only 0 to 0. -/
theorem eq_zero_of_crcRounds {k : Nat} {c : BitVec 16} (h : crcRounds k c = 0#16) : c = 0#16 := by
  induction k generalizing c with
  | zero => exact h
  | succ k ih => exact eq_zero_of_crcRound (ih h)

/-- `k` rounds tell every two words apart. -/
theorem crcRounds_injective (k : Nat) : Function.Injective (crcRounds k) := fun c d h =>
  BitVec.xor_eq_zero_iff.mp (eq_zero_of_crcRounds (by rw [crcRounds_xor, h, BitVec.xor_self]))

/-! ### A step -/

/-- 40_crc R86 item 1: `crc_step` is linear over XOR. -/
theorem crcStep_xor (c₁ c₂ : BitVec 16) (b₁ b₂ : Byte) :
    crcStep (c₁ ^^^ c₂) (b₁ ^^^ b₂) = crcStep c₁ b₁ ^^^ crcStep c₂ b₂ := by
  rw [crcStep, crcStep, crcStep, ← crcRounds_xor, BitVec.setWidth_xor, BitVec.shiftLeft_xor_distrib]
  congr 1
  ac_rfl

/-- 40_crc R86 item 4: for one byte `crc_step` tells every two registers apart. -/
theorem crcStep_injective (b : Byte) : Function.Injective (fun c => crcStep c b) :=
  fun _ _ h => (BitVec.xor_left_inj _).mp (crcRounds_injective 8 h)

/-- For one register `crc_step` tells every two bytes apart. -/
theorem crcStep_byte_injective (c : BitVec 16) : Function.Injective (crcStep c) := by
  intro b b' h
  have hword : b.setWidth 16 <<< 8 = b'.setWidth 16 <<< 8 := (BitVec.xor_right_inj _).mp (crcRounds_injective 8 h)
  have hnum := congrArg BitVec.toNat hword
  rw [setWidth_shiftLeft_eight_toNat, setWidth_shiftLeft_eight_toNat] at hnum
  exact BitVec.eq_of_toNat_eq (by omega)

/-- 40_crc R86 item 2: `crc_step` reads its byte in the high half alone. -/
theorem crcStep_eq_zero_byte (c : BitVec 16) (b : Byte) : crcStep c b = crcStep (c ^^^ (b.setWidth 16 <<< 8)) 0#8 := by
  simp [crcStep]

/-- The zero register with a zero byte stays zero. -/
theorem crcStep_zero : crcStep 0#16 0#8 = 0#16 := by decide

/-! ### The fold -/

/-- The fold over a message tells every two registers apart. -/
theorem foldl_crcStep_injective (bs : Bytes) : Function.Injective (fun c => bs.foldl crcStep c) := by
  induction bs with
  | nil => exact Function.injective_id
  | cons b bs ih => exact ih.comp (crcStep_injective b)

/-- 40_crc R86 item 1: the fold is linear over XOR, for strings of equal length. -/
theorem foldl_crcStep_xor {xs ys : Bytes} (h : xs.length = ys.length) (c d : BitVec 16) :
    (List.zipWith (fun x y => x ^^^ y) xs ys).foldl crcStep (c ^^^ d) = xs.foldl crcStep c ^^^ ys.foldl crcStep d := by
  induction xs generalizing ys c d with
  | nil =>
    obtain rfl := List.length_eq_zero_iff.mp h.symm
    rfl
  | cons x xs ih =>
    cases ys with
    | nil => cases h
    | cons y ys =>
      rw [List.zipWith_cons_cons, List.foldl_cons, List.foldl_cons, List.foldl_cons, crcStep_xor]
      exact ih (Nat.succ.inj h) _ _

/-- 40_crc R86 item 3: zero bytes leave the zero register. -/
theorem foldl_crcStep_zeros (k : Nat) : (List.replicate k 0#8).foldl crcStep 0#16 = 0#16 := by
  induction k with
  | zero => rfl
  | succ k ih => rw [List.replicate_succ, List.foldl_cons, crcStep_zero, ih]

/-- Appended bytes are folded from the CRC of what stands before them. -/
theorem crc16Xmodem_append (xs ys : Bytes) : crc16Xmodem (xs ++ ys) = ys.foldl crcStep (crc16Xmodem xs) :=
  List.foldl_append

/-- Settles O9: the step's linearity, folded from the zero register on both sides. -/
theorem crcIsLinear : Obligations.CrcIsLinear := ⟨crcStep_xor, fun _ _ h => foldl_crcStep_xor h 0#16 0#16⟩

/-- Settles O10: leading zeros leave the register at `CRC_INIT`, which is 0. -/
theorem leadingZerosDoNotChangeTheCrc : Obligations.LeadingZerosDoNotChangeTheCrc := by
  refine ⟨crcStep_eq_zero_byte, fun k bs => ?_⟩
  have hzeros : crc16Xmodem (List.replicate k 0#8) = 0#16 := foldl_crcStep_zeros k
  rw [crc16Xmodem_append, hzeros, crc16Xmodem]

/-- Settles O11: there are finitely many registers, so a map of them that is one to one is onto. -/
theorem crcStepIsABijection : Obligations.CrcStepIsABijection :=
  fun b => Finite.injective_iff_bijective.mp (crcStep_injective b)

/-! ### The bit-serial form -/

/-- A bit-serial step is a round of the register with the byte's remaining bits on top of it, those bits taken off again. -/
theorem serialBit_eq {b : Byte} {x : BitVec 16} {k : Nat} (hbit : x.getLsbD 15 = b.getLsbD k) (c : BitVec 16) :
    serialBit b c k = crcRound (c ^^^ x) ^^^ (x <<< 1) := by
  rw [serialBit, crcRound, BitVec.getLsbD_xor, hbit, BitVec.shiftLeft_xor_distrib]
  split
  · rw [BitVec.xor_assoc (c <<< 1), BitVec.xor_comm (x <<< 1), ← BitVec.xor_assoc, xor_xor_cancel]
  · rw [xor_xor_cancel]

/-- Bit-serial steps over the bits below `n` are `n` rounds of the register with those bits on top of it. -/
theorem foldl_serialBit (b : Byte) {n : Nat} (hn : n ≤ 8) (c : BitVec 16) :
    (List.range n).reverse.foldl (serialBit b) c = crcRounds n (c ^^^ (b.setWidth 16 <<< (16 - n))) := by
  induction n generalizing c with
  | zero => simp [crcRounds]
  | succ n ih =>
    have hbit : (b.setWidth 16 <<< (16 - (n + 1))).getLsbD 15 = b.getLsbD n := by
      have hsub : 15 - (16 - (n + 1)) = n := by omega
      have hlow : ¬ 15 < 16 - (n + 1) := by omega
      have hin : n < 16 := by omega
      simp only [BitVec.getLsbD_shiftLeft, BitVec.getLsbD_setWidth, hsub, hlow, hin]
      simp
    have hshift : b.setWidth 16 <<< (16 - (n + 1)) <<< 1 = b.setWidth 16 <<< (16 - n) := by
      rw [← BitVec.shiftLeft_add]
      congr 1
      omega
    rw [List.range_succ, List.reverse_append, List.reverse_singleton, List.singleton_append, List.foldl_cons,
      ih (by omega), serialBit_eq hbit, hshift, xor_xor_cancel, crcRounds]

/-- Settles O12: bits 7 down to 0 are the eight bits below 8. -/
theorem crcStepIsBitSerial : Obligations.CrcStepIsBitSerial := fun c b => (foldl_serialBit b (n := 8) (by decide) c).symm

/-! ### The residue -/

/-- Rounds that meet no bit in the place they test are a shift. -/
theorem crcRounds_of_lt {k : Nat} {c : BitVec 16} (h : c.toNat < 2 ^ (16 - k)) (hk : k ≤ 16) : crcRounds k c = c <<< k := by
  induction k generalizing c with
  | zero => rw [crcRounds, BitVec.shiftLeft_zero]
  | succ k ih =>
    have hpow : 2 ^ (16 - k) = 2 ^ (16 - (k + 1)) * 2 := by rw [← Nat.pow_succ]; congr 1; omega
    have hle : 2 ^ (16 - k) ≤ 2 ^ 16 := Nat.pow_le_pow_right (by decide) (by omega)
    have hround : crcRound c = c <<< 1 := by
      rw [crcRound, if_neg]
      rw [getLsbD_high_iff]
      omega
    have hshift : (c <<< 1).toNat < 2 ^ (16 - k) := by
      rw [shiftLeft_one_toNat]
      omega
    rw [crcRounds, hround, ih hshift (by omega), ← BitVec.shiftLeft_add, Nat.add_comm]

/-- Eight rounds move a byte into the high half. -/
theorem crcRounds_setWidth (b : Byte) : crcRounds 8 (b.setWidth 16) = b.setWidth 16 <<< 8 :=
  crcRounds_of_lt (by rw [BitVec.toNat_setWidth_of_le (by decide)]; exact b.isLt) (by decide)

/-- A step leaves 0 exactly when the byte is the register's high half and the low half is 0. -/
theorem crcStep_eq_zero_iff (c : BitVec 16) (b : Byte) : crcStep c b = 0#16 ↔ c = b.setWidth 16 <<< 8 := by
  rw [← BitVec.xor_eq_zero_iff (x := c)]
  refine ⟨eq_zero_of_crcRounds, fun h => ?_⟩
  rw [crcStep, h]
  rfl

/-- Two bytes appended leave 0 exactly when the first is XORed into the high half to leave the second alone. -/
theorem crcStep_crcStep_eq_zero_iff (c : BitVec 16) (b b' : Byte) :
    crcStep (crcStep c b) b' = 0#16 ↔ c ^^^ (b.setWidth 16 <<< 8) = b'.setWidth 16 := by
  rw [crcStep_eq_zero_iff, ← crcRounds_setWidth, crcStep]
  exact (crcRounds_injective 8).eq_iff

/-- A word without its high byte is its low byte. -/
theorem xor_highByte (c : BitVec 16) :
    c ^^^ ((c.extractLsb' 8 8).setWidth 16 <<< 8) = (c.extractLsb' 0 8).setWidth 16 := by
  ext i hi
  simp only [BitVec.getElem_xor, BitVec.getElem_shiftLeft, BitVec.getElem_setWidth, BitVec.getLsbD_extractLsb']
  by_cases hlow : i < 8
  · simp [hlow, BitVec.getLsbD_eq_getElem hi]
  · have hsub : 8 + (i - 8) = i := by omega
    have hhigh : i - 8 < 8 := by omega
    simp [hlow, hsub, hhigh, BitVec.getLsbD_eq_getElem hi]

/-- A byte in the high half does not change the low byte. -/
theorem lowByte_xor_shiftLeft (c : BitVec 16) (b : Byte) :
    (c ^^^ (b.setWidth 16 <<< 8)).extractLsb' 0 8 = c.extractLsb' 0 8 := by
  ext i hi
  simp [hi]

/-- The low byte of a byte as a word. -/
theorem lowByte_setWidth (b : Byte) : (b.setWidth 16).extractLsb' 0 8 = b := by
  ext i hi
  have hi' : i < 16 := by omega
  simp [hi', BitVec.getLsbD_eq_getElem hi]

/-- 40_crc R87: the CRC appended high byte first leaves 0. -/
theorem crc16Xmodem_append_highLow (bs : Bytes) :
    crc16Xmodem (bs ++ [(crc16Xmodem bs).extractLsb' 8 8, (crc16Xmodem bs).extractLsb' 0 8]) = 0#16 := by
  rw [crc16Xmodem_append, List.foldl_cons, List.foldl_cons, List.foldl_nil, crcStep_crcStep_eq_zero_iff, xor_highByte]

/-- 40_crc R87: the CRC appended low byte first leaves 0 exactly where its two bytes are equal. -/
theorem crc16Xmodem_append_lowHigh_iff (bs : Bytes) : crc16Xmodem (bs ++ lowHigh (crc16Xmodem bs)) = 0#16 ↔
    (crc16Xmodem bs).extractLsb' 0 8 = (crc16Xmodem bs).extractLsb' 8 8 := by
  rw [crc16Xmodem_append, lowHigh, List.foldl_cons, List.foldl_cons, List.foldl_nil, crcStep_crcStep_eq_zero_iff]
  constructor
  case mp =>
    intro h
    rw [← lowByte_xor_shiftLeft (crc16Xmodem bs) ((crc16Xmodem bs).extractLsb' 0 8), h, lowByte_setWidth]
  case mpr =>
    intro h
    rw [h, xor_highByte, h]

/-- Settles O13: a step is told from 0 by the register's high byte alone, and the check string is computed. -/
theorem crcResidueIsZeroHighByteFirst : Obligations.CrcResidueIsZeroHighByteFirst :=
  ⟨crc16Xmodem_append_highLow, crc16Xmodem_append_lowHigh_iff, by decide +kernel⟩

/-! ### Error detection -/

/-- A flipped bit is another byte. -/
theorem xor_bit_ne (b : Byte) {k : Nat} (h : k < 8) : b ^^^ (1#8 <<< k) ≠ b := by
  intro heq
  have hbit : (1#8 <<< k).getLsbD k = false := by
    rw [(BitVec.xor_right_inj b).mp (heq.trans BitVec.xor_zero.symm), BitVec.getLsbD_zero]
  simp [h] at hbit

/-- Folded from any register, a message with one bit flipped leaves another CRC: the byte leaves another register, and the
bytes behind it keep the two apart. -/
theorem foldl_crcStep_flipBit_ne {bs : Bytes} {i k : Nat} (hi : i < bs.length) (hk : k < 8) (c : BitVec 16) :
    (flipBit bs i k).foldl crcStep c ≠ bs.foldl crcStep c := by
  induction bs generalizing i c with
  | nil => cases hi
  | cons b bs ih =>
    cases i with
    | zero => exact fun h => xor_bit_ne b hk (crcStep_byte_injective c (foldl_crcStep_injective bs h))
    | succ i => exact ih (Nat.lt_of_succ_lt_succ hi) (crcStep c b)

/-- 40_crc R88: changing one bit of a message changes its CRC. -/
theorem crc16Xmodem_flipBit_ne {bs : Bytes} {i k : Nat} (hi : i < bs.length) (hk : k < 8) :
    crc16Xmodem (flipBit bs i k) ≠ crc16Xmodem bs := foldl_crcStep_flipBit_ne hi hk crcInitValue

/-- Settles O14: a flipped bit is never lost, and a message with its CRC appended is one that zeros are not told from. -/
theorem oneChangedBitChangesTheCrc : Obligations.OneChangedBitChangesTheCrc := by
  refine ⟨fun _ _ _ hi hk => crc16Xmodem_flipBit_ne hi hk, [0x01#8, 0x10#8, 0x21#8], [0#8, 0#8, 0#8], rfl, ?_, ?_⟩
  · decide
  · decide +kernel

/-! ### The stream -/

/-- A sequence that ends in a next state executed its first operation, and the rest from the state that left. -/
theorem execAll_cons_eq_next {i : Instr} {is : List Instr} {s t : State} (h : execAll (i :: is) s = .next t) :
    ∃ u, exec i s = .next u ∧ execAll is u = .next t := by
  obtain ⟨u, hu⟩ := exec_completes i s
  rw [execAll, hu] at h
  exact ⟨u, hu, h⟩

/-- Executing a sequence whose first operation answers is executing the rest from the state it answered on. -/
theorem execAll_cons_of_answers {i : Instr} {s u : State} {result : Bytes} (h : exec i s = answers u result)
    (is : List Instr) : execAll (i :: is) s = execAll is { u with response := 0x00#8 :: result } := by
  rw [execAll, h]
  rfl

/-- A sequence of one operation is that operation. -/
theorem execAll_singleton (i : Instr) (s : State) : execAll [i] s = exec i s := by
  obtain ⟨t, ht⟩ := exec_completes i s
  rw [execAll, ht]
  rfl

/-- 40_crc R85: an operation that is neither `CRC.INIT` nor a reset leaves in `CRC` the fold over the bytes it feeds: its own
byte if it is `CRC.BYTE`, and none if it is not. -/
theorem exec_crc_eq_foldl {i : Instr} {s t : State} (hi : i ≠ .crcInit ∧ i ≠ .sysReset) (h : exec i s = .next t)
    (is : List Instr) : (crcBytesOf (i :: is)).foldl crcStep s.crc = (crcBytesOf is).foldl crcStep t.crc := by
  obtain ⟨hinit, hreset⟩ := hi
  obtain ⟨hkept, -⟩ := operationsWriteOnlyTheirRegisters i s t h
  cases i with
  | crcInit => exact absurd rfl hinit
  | sysReset => exact absurd rfl hreset
  | crcByte b =>
    obtain rfl := (answer_eq_next_iff _ t []).mp h
    rfl
  | _ =>
    rw [hkept rfl]
    rfl

/-- 40_crc R85: a sequence without `CRC.INIT` and reset leaves in `CRC` the fold over the bytes it feeds. -/
theorem execAll_crc_eq_foldl {is : List Instr} {s t : State} (his : ∀ i ∈ is, i ≠ .crcInit ∧ i ≠ .sysReset)
    (h : execAll is s = .next t) : t.crc = (crcBytesOf is).foldl crcStep s.crc := by
  induction is generalizing s with
  | nil =>
    obtain rfl := Host.Outcome.next.inj h
    rfl
  | cons i is ih =>
    obtain ⟨hi, hrest⟩ := List.forall_mem_cons.mp his
    obtain ⟨u, hu, ht⟩ := execAll_cons_eq_next h
    rw [ih hrest ht, exec_crc_eq_foldl hi hu]

/-- 30_encoding R78: bytes fed and the register read answer the fold from the register's value, which is left in `CRC`. -/
theorem execAll_crcBytes_crcRead (bs : Bytes) (s : State) : execAll (bs.map .crcByte ++ [.crcRead]) s =
    answers { s with crc := bs.foldl crcStep s.crc } (lowHigh (bs.foldl crcStep s.crc)) := by
  induction bs generalizing s with
  | nil => rw [List.map_nil, List.nil_append, execAll_singleton, exec_crcRead, le16_eq_lowHigh]; rfl
  | cons b bs ih =>
    rw [List.map_cons, List.cons_append, execAll_cons_of_answers (exec_crcByte b s), ih]
    rfl

/-- 30_encoding R78: `CRC.BLOCK` answers `crc16_xmodem`. -/
theorem execAll_crcBlock (bs : Bytes) (s : State) :
    execAll (crcBlock bs) s = answers { s with crc := crc16Xmodem bs } (lowHigh (crc16Xmodem bs)) := by
  rw [crcBlock, execAll_cons_of_answers (exec_crcInit s), execAll_crcBytes_crcRead]
  rfl

/-- Settles O8: the stream, the block of the stream's own operations, and the fold of a concatenation. -/
theorem crcStreamEqualsTheFunction : Obligations.CrcStreamEqualsTheFunction :=
  ⟨fun _ _ _ his h => execAll_crc_eq_foldl his h, execAll_crcBlock, fun _ _ _ => List.foldl_append⟩

end Sys2Proof.Machine

namespace Sys2Proof.Machine

open Sys2Proof.Spec

/-! ## Family other: streams of bytes, frames and packets

A frame and its packet are the same bytes: `packetOfFrame` and `Packet.frame` are inverse. With the rule for 19 bytes pushed
into an empty accumulator this gives the round trips, and with the CRC's error detection that of a single bit. -/

/-! ### The receive accumulator -/

/-- 10_state R15, 70_reset R183: what pushing `bs` from `s` to `t` keeps to, whatever the bytes are. -/
def PushedTo (s : State) (bs : Bytes) (t : State) : Prop :=
  t.rxcnt = (s.rxcnt + bs.length) % 19 ∧ t.rxbuf <:+ s.rxbuf ++ bs ∧
    t.crc = s.crc ∧ t.err = s.err ∧ t.strictPad = s.strictPad ∧ t.commands = s.commands

/-- No bytes pushed. -/
theorem PushedTo.nil {s : State} (hs : s.RxLegal) : PushedTo s [] s :=
  ⟨(Nat.mod_eq_of_lt (Nat.lt_succ_of_le hs)).symm, by rw [List.append_nil], rfl, rfl, rfl, rfl⟩

/-- A byte pushed and then others. -/
theorem PushedTo.cons {s u t : State} {b : Byte} {bs : Bytes} (h : PushedTo s [b] u) (h' : PushedTo u bs t) :
    PushedTo s (b :: bs) t := by
  obtain ⟨hcnt, hbuf, hcrc, herr, hpad, hcommands⟩ := h
  obtain ⟨hcnt', hbuf', hcrc', herr', hpad', hcommands'⟩ := h'
  refine ⟨?cnt, ?buf, hcrc'.trans hcrc, herr'.trans herr, hpad'.trans hpad, hcommands'.trans hcommands⟩
  case cnt =>
    simp only [List.length_cons, List.length_nil] at hcnt hcnt' ⊢
    omega
  case buf =>
    have hlonger : u.rxbuf ++ bs <:+ s.rxbuf ++ [b] ++ bs := (List.suffix_append_self_iff).mpr hbuf
    rw [List.append_assoc, List.singleton_append] at hlonger
    exact hbuf'.trans hlonger

/-- A pushed byte leaves the accumulator legal. -/
theorem PushedTo.rxLegal {s t : State} {bs : Bytes} (h : PushedTo s bs t) : t.RxLegal := by
  obtain ⟨hcnt, -⟩ := h
  rw [State.RxLegal, hcnt]
  exact Nat.le_of_lt_succ (Nat.mod_lt _ (by decide))

/-- 41_packet R99: one byte pushed. -/
theorem exec_rxPush_pushedTo (b : Byte) {s : State} (hs : s.RxLegal) :
    ∃ t, exec (.rxPush b) s = .next t ∧ PushedTo s [b] t := by
  obtain ⟨hlen, hexec⟩ | ⟨hlen, hexec⟩ := exec_rxPush_cases b hs
  · refine ⟨_, hexec, ?_, List.suffix_rfl, rfl, rfl, rfl, rfl⟩
    simp only [State.rxcnt, List.length_append, List.length_singleton]
    omega
  · refine ⟨_, hexec, ?_, List.nil_suffix, rfl, rfl, rfl, rfl⟩
    simp only [State.rxcnt, hlen, List.length_singleton, List.length_nil]

/-- Settles O25, by induction on the bytes. -/
theorem rxFramingIsPositional : Obligations.RxFramingIsPositional := by
  intro bs
  induction bs with
  | nil => exact fun s hs => ⟨s, rfl, PushedTo.nil hs⟩
  | cons b bs ih =>
    intro s hs
    obtain ⟨u, hu, hpushed⟩ := exec_rxPush_pushedTo b hs
    obtain ⟨t, ht, hrest⟩ := ih u hpushed.rxLegal
    exact ⟨t, by rw [List.map_cons, execAll, hu]; exact ht, hpushed.cons hrest⟩

/-- 41_packet R99: bytes that complete the accumulator load the frame of the stored bytes and them. -/
theorem execAll_rxPush_completes (bs : Bytes) (b : Byte) {s : State} (h : s.rxbuf.length + bs.length = 18) :
    execAll ((bs ++ [b]).map .rxPush) s =
      answers { s with pkt := some (packetOfFrame (s.rxbuf ++ (bs ++ [b]))), rxbuf := [] } [1#8] := by
  induction bs generalizing s with
  | nil => exact (execAll_singleton _ s).trans (exec_rxPush_completes b h)
  | cons c cs ih =>
    rw [List.length_cons] at h
    have hbelow : s.rxcnt < 18 := by rw [State.rxcnt]; omega
    have hrest : (s.rxbuf ++ [c]).length + cs.length = 18 := by rw [List.length_append, List.length_singleton]; omega
    rw [List.cons_append, List.map_cons, execAll_cons_of_answers (exec_rxPush_stores c hbelow), ih hrest]
    simp [answers]

/-- 30_encoding R78: `RX.FRAME` of 19 bytes from an empty accumulator loads their packet and leaves it empty. -/
theorem execAll_rxFrame {frame : Bytes} {s : State} (h : frame.length = 19) (hs : s.rxbuf = []) :
    execAll (rxFrame frame) s = answers { s with pkt := some (packetOfFrame frame) } [1#8] := by
  obtain ⟨bs, b, rfl⟩ := (List.eq_nil_or_concat' frame).resolve_left (List.ne_nil_of_length_eq_add_one h)
  have hbs : s.rxbuf.length + bs.length = 18 := by simpa [hs] using h
  rw [rxFrame, execAll_rxPush_completes bs b hbs]
  simp [hs]

/-- Settles O24: both load the frame's packet. -/
theorem rxFrameLoadsWhatDecodeLoads : Obligations.RxFrameLoadsWhatDecodeLoads :=
  fun frame s h hs => ⟨packetOfFrame frame, exec_pktDecode_loads h s, execAll_rxFrame h hs⟩

/-! ### A frame and its packet -/

/-- 20_memory R46: the two bytes of a word spell it. -/
theorem unle_le16 (v : BitVec 16) : unle (le16 v) = v.toNat := unle_leBytes v.isLt

/-- `le16` tells every two words apart. -/
theorem le16_injective : Function.Injective le16 := fun v w h =>
  BitVec.eq_of_toNat_eq (by rw [← unle_le16, h, unle_le16])

/-- Two bytes are spelled by the word that holds their number. -/
theorem le16_ofNat_unle {bs : Bytes} (h : bs.length = 2) : le16 (BitVec.ofNat 16 (unle bs)) = bs := by
  have hlt : unle bs < 2 ^ 16 := calc
    unle bs < 256 ^ bs.length := unle_lt bs
    _ = 256 ^ 2 := by rw [h]
  rw [le16, BitVec.toNat_ofNat, Nat.mod_eq_of_lt hlt, leBytes_unle h]

/-- 20_memory R36: the CRC of a packet taken from a frame covers the first 17 bytes. -/
theorem packetOfFrame_covered {frame : Bytes} (h : frame.length = 19) : (packetOfFrame frame).covered = frame.take 17 := by
  cases frame with
  | nil => cases h
  | cons b bs => rfl

/-- 20_memory R36: the stored CRC of a packet taken from a frame is the last two bytes. -/
theorem packetOfFrame_le16_crcf {frame : Bytes} (h : frame.length = 19) :
    le16 (packetOfFrame frame).crcf = frame.drop 17 :=
  (le16_ofNat_unle (slice_length h.ge)).trans (List.take_of_length_le (by simp [h]))

/-- 41_packet R102: `PKT.RAW` gives the decoded frame back. -/
theorem frame_packetOfFrame {frame : Bytes} (h : frame.length = 19) : (packetOfFrame frame).frame = frame := by
  rw [Packet.frame, packetOfFrame_covered h, packetOfFrame_le16_crcf h, List.take_append_drop]

/-- A packet is its covered bytes and its stored CRC. -/
theorem packet_eq_of_covered_of_crcf {p q : Packet} (hcovered : p.covered = q.covered) (hcrcf : p.crcf = q.crcf) :
    p = q := by
  cases p
  cases q
  obtain ⟨hmetadata, hpayload⟩ := List.cons.inj hcovered
  exact Packet.mk.injEq .. ▸ ⟨hmetadata, hpayload, hcrcf⟩

/-- 41_packet R102: `PKT.DECODE` gives the packet of a raw frame back. -/
theorem packetOfFrame_frame {p : Packet} (h : p.payload.length = 16) : packetOfFrame p.frame = p := by
  have hlen := frame_length h
  apply packet_eq_of_covered_of_crcf
  · rw [packetOfFrame_covered hlen]
    exact List.take_left' (by simp [Packet.covered, h])
  · apply le16_injective
    rw [packetOfFrame_le16_crcf hlen]
    exact List.drop_left' (by simp [Packet.covered, h])

/-- Settles O28: `packetOfFrame` and `Packet.frame` are inverse. -/
theorem decodeAndRawAreInverse : Obligations.DecodeAndRawAreInverse := by
  refine ⟨fun frame s h => ⟨_, exec_pktDecode_loads h s, ?_⟩, fun s hlegal hloaded => ?_⟩
  · rw [exec_pktRaw_loaded rfl, frame_packetOfFrame h]
  · obtain ⟨p, hp⟩ := Option.isSome_iff_exists.mp hloaded
    have hlen : p.payload.length = 16 := hlegal p hp
    refine ⟨p.frame, exec_pktRaw_loaded hp, ?_⟩
    rw [exec_pktDecode_loads (frame_length hlen), packetOfFrame_frame hlen, ← hp]

/-! ### Single-bit corruption -/

/-- A bit flipped among the first `n` bytes is flipped in them. -/
theorem take_flipBit_of_lt {bs : Bytes} {i n : Nat} (k : Nat) (h : i < n) :
    (flipBit bs i k).take n = flipBit (bs.take n) i k := by
  have hbyte : (bs.take n).getD i 0#8 = bs.getD i 0#8 := by
    rw [List.getD_eq_getElem?_getD, List.getElem?_take_of_lt h, List.getD_eq_getElem?_getD]
  rw [flipBit, flipBit, hbyte, List.take_set]

/-- A bit flipped among the first `n` bytes leaves the others. -/
theorem drop_flipBit_of_lt {bs : Bytes} {i n : Nat} (k : Nat) (h : i < n) : (flipBit bs i k).drop n = bs.drop n :=
  List.drop_set_of_lt h

/-- A bit flipped behind the first `n` bytes leaves them. -/
theorem take_flipBit_of_le {bs : Bytes} {i n : Nat} (k : Nat) (h : n ≤ i) : (flipBit bs i k).take n = bs.take n :=
  List.take_set_of_le h

/-- A flipped bit leaves the length. -/
theorem flipBit_length (bs : Bytes) (i k : Nat) : (flipBit bs i k).length = bs.length := List.length_set

/-- A string with a flipped bit is another: even its CRC is. -/
theorem flipBit_ne {bs : Bytes} {i k : Nat} (hi : i < bs.length) (hk : k < 8) : flipBit bs i k ≠ bs :=
  fun h => crc16Xmodem_flipBit_ne hi hk (congrArg crc16Xmodem h)

/-- 41_packet R93: the last two bytes of a valid frame are settled by those before them. -/
theorem drop_eq_of_isValid {frame : Bytes} (h : frame.length = 19) (hvalid : (packetOfFrame frame).isValid = true) :
    frame.drop 17 = le16 (crc16Xmodem (frame.take 17)) := by
  obtain ⟨-, hcrcf⟩ := (isValid_iff _).mp hvalid
  rw [← packetOfFrame_le16_crcf h, hcrcf, Packet.computedCrc, packetOfFrame_covered h]

/-- 41_packet R101: of two frames that differ in one bit at most one is valid. A bit among the first 17 bytes changes their
CRC and not the last two bytes; one of the last two changes them and not the CRC. -/
theorem isValid_flipBit {frame : Bytes} {i k : Nat} (h : frame.length = 19)
    (hvalid : (packetOfFrame frame).isValid = true) (hi : i < 19) (hk : k < 8) :
    (packetOfFrame (flipBit frame i k)).isValid = false := by
  by_contra hflipped
  have hlen : (flipBit frame i k).length = 19 := (flipBit_length frame i k).trans h
  have htail := drop_eq_of_isValid h hvalid
  have htail' := drop_eq_of_isValid hlen (eq_true_of_ne_false hflipped)
  obtain hcovered | hcrc := Nat.lt_or_ge i 17
  · rw [drop_flipBit_of_lt k hcovered, take_flipBit_of_lt k hcovered, htail] at htail'
    exact crc16Xmodem_flipBit_ne (by simp [h, hcovered]) hk (le16_injective htail').symm
  · have hsame : flipBit frame i k = frame := by
      rw [← List.take_append_drop 17 (flipBit frame i k), htail', take_flipBit_of_le k hcrc, ← htail,
        List.take_append_drop]
    exact flipBit_ne (h ▸ hi) hk hsame

/-- Settles O27: what `PKT.VALID` answers is `is_valid` of the decoded packet. -/
theorem singleBitCorruptionIsDetected : Obligations.SingleBitCorruptionIsDetected := by
  intro frame s t i k h hdecode hanswer hi hk
  obtain rfl := (answer_eq_next_iff _ t []).mp ((exec_pktDecode_loads h s).symm.trans hdecode)
  rw [exec_pktValid_loaded rfl, answers_inj, List.cons.injEq] at hanswer
  have hvalid : (packetOfFrame frame).isValid = true := by
    by_contra hinvalid
    rw [Bool.not_eq_true] at hinvalid
    rw [hinvalid] at hanswer
    exact absurd hanswer (by decide)
  refine ⟨_, exec_pktDecode_loads ((flipBit_length frame i k).trans h) s, ?_⟩
  rw [exec_pktValid_loaded rfl, isValid_flipBit h hvalid hi hk]
  rfl

/-! ### Encoded packets -/

section Encoded

variable (type : PacketType) {payload : Bytes} (h : payload.length ≤ 16)
include h

/-- 41_packet R90: the declared length is the payload's, and the type is the one given. -/
theorem encodedPacket_metadata_fields : (encodedPacket type payload).metadata.toNat % 32 = payload.length ∧
    (encodedPacket type payload).metadata.toNat / 32 = type.code.toNat := by
  have hmetadata : (encodedPacket type payload).metadata.toNat = type.code.toNat * 32 + payload.length :=
    metaByte_toNat type h
  omega

/-- 41_packet R100: an encoded packet is valid. -/
theorem encodedPacket_isValid : (encodedPacket type payload).isValid = true := by
  obtain ⟨hlen, -⟩ := encodedPacket_metadata_fields type h
  exact (isValid_iff _).mpr ⟨hlen ▸ h, rfl⟩

/-- 41_packet R100: an encoded packet, loaded, gives the type and the payload back. -/
theorem recovers_of_loaded {t : State} (ht : t.pkt = some (encodedPacket type payload)) :
    recovers t type.code payload := by
  obtain ⟨hlen, htype⟩ := encodedPacket_metadata_fields type h
  have hpayload : (encodedPacket type payload).payload.take payload.length = payload := List.take_left' rfl
  refine ⟨?valid, ?type, ?payload, ?len⟩
  case valid => rw [exec_pktValid_loaded ht, encodedPacket_isValid type h]; rfl
  case type => rw [exec_pktType_loaded ht, htype, BitVec.ofNat_toNat, BitVec.setWidth_eq]
  case payload => rw [exec_pktPayload_loaded ht (hlen ▸ h), hlen, hpayload]
  case len => rw [exec_pktLen_loaded ht, hlen]

/-- 41_packet R100: the frame of an encoded packet is the packet. -/
theorem packetOfFrame_encodedPacket_frame :
    packetOfFrame (encodedPacket type payload).frame = encodedPacket type payload :=
  packetOfFrame_frame (encodedPacket_payload_length type h)

end Encoded

/-- 41_packet R90: `PKT.ENCODE` that answers has loaded an encoded packet. -/
theorem pkt_eq_of_pktEncode_answers {type : Byte} {payload result : Bytes} {s t : State}
    (h : exec (.pktEncode type payload) s = answers t result) :
    ∃ ty : PacketType, payload.length ≤ 16 ∧ t.pkt = some (encodedPacket ty payload) := by
  obtain ⟨e, hraises⟩ | ⟨ty, rfl, hlen⟩ := pktEncode_raises_or_fits type payload
  · exact absurd ((hraises s).symm.trans h) (raise_ne_answers s t e result)
  · rw [exec_pktEncode_loads ty hlen] at h
    injection h with hstate
    exact ⟨ty, hlen, (congrArg State.pkt hstate).symm⟩

/-- A type operand of 0 or 1 is the code of a packet type. -/
theorem exists_code_eq {type : Byte} (h : type = 0#8 ∨ type = 1#8) : ∃ t : PacketType, type = t.code := by
  obtain rfl | rfl := h
  · exact ⟨.data, rfl⟩
  · exact ⟨.control, rfl⟩

/-- Settles O26: all three ways load the encoded packet. -/
theorem packetRoundTrip : Obligations.PacketRoundTrip := by
  intro type payload s htype h
  obtain ⟨t, rfl⟩ := exists_code_eq htype
  have hlen := frame_length (encodedPacket_payload_length t h)
  have hback := packetOfFrame_encodedPacket_frame t h
  refine ⟨_, (encodedPacket t payload).frame, exec_pktEncode_loads t h s, recovers_of_loaded t h rfl,
    exec_pktRaw_loaded rfl, hlen, fun u => ?decode, fun u hu => ?push⟩
  case decode => exact ⟨_, exec_pktDecode_loads hlen u, recovers_of_loaded t h (congrArg some hback)⟩
  case push => exact ⟨_, execAll_rxFrame hlen hu, recovers_of_loaded t h (congrArg some hback)⟩

/-- The packet types' codes are 0 and 1. -/
theorem code_toNat_le_one (type : PacketType) : type.code.toNat ≤ 1 := by cases type <;> decide

/-- 41_packet R103: what the frame of an encoded packet looks like. -/
theorem encodedPacket_frame_shape (type : PacketType) {payload : Bytes} (h : payload.length ≤ 16) :
    (encodedPacket type payload).frame.getD 0 0#8 = (encodedPacket type payload).metadata ∧
    (∀ i, payload.length ≤ i → i < 16 → (encodedPacket type payload).frame[1 + i]? = some 0xFF#8) ∧
    ((encodedPacket type payload).frame.getD 17 0#8).toNat + 256 * ((encodedPacket type payload).frame.getD 18 0#8).toNat =
      (crc16Xmodem ((encodedPacket type payload).frame.take 17)).toNat := by
  have hlen := frame_length (encodedPacket_payload_length type h)
  have hback := packetOfFrame_encodedPacket_frame type h
  refine ⟨rfl, fun i hi hi' => ?pad, ?crc⟩
  case pad =>
    have hpayload : (encodedPacket type payload).payload = payload ++ List.replicate (16 - payload.length) 0xFF#8 := rfl
    rw [← packetOfFrame_payload_getElem? _ hi', hback, hpayload, List.getElem?_append_right hi, List.getElem?_replicate,
      if_pos (by omega)]
  case crc =>
    rw [← packetOfFrame_crcf_toNat hlen, ← packetOfFrame_covered hlen, hback]
    rfl

/-- Settles O29: the encoded frame's shape, and the packets of 95_test_vectors V36 and V50. -/
theorem encodedFramesHaveTheirShape : Obligations.EncodedFramesHaveTheirShape := by
  refine ⟨fun type payload s t frame hencode hraw => ?shape, ⟨⟨0xA1#8, 0x06#8 :: List.replicate 15 0xFF#8, 0x844F#16⟩, ?v36⟩,
    ⟨⟨0x21#8, 0x06#8 :: 0x00#8 :: List.replicate 14 0xFF#8, 0x8610#16⟩, ?v50⟩⟩
  case shape =>
    obtain ⟨ty, hlen, hpkt⟩ := pkt_eq_of_pktEncode_answers hencode
    obtain rfl : (encodedPacket ty payload).frame = frame := answers_inj.mp ((exec_pktRaw_loaded hpkt).symm.trans hraw)
    obtain ⟨hbyte, hpad, hcrc⟩ := encodedPacket_frame_shape ty hlen
    have hmetadata : (encodedPacket ty payload).metadata.toNat = ty.code.toNat * 32 + payload.length :=
      metaByte_toNat ty hlen
    have hcode := code_toNat_le_one ty
    rw [hbyte, hmetadata]
    exact ⟨by omega, fun i hi => hpad i (by omega), hcrc⟩
  case v36 => decide +kernel
  case v50 => decide +kernel

/-! ### Control and data packets -/

/-- 30_encoding R79: the row of an encoded packet's type is that type. -/
theorem encodedPacket_frameRows (type : PacketType) {payload : Bytes} (h : payload.length ≤ 16) :
    (encodedPacket type payload).frameRows = (some type, if some type = some .control then
      controlOpOf ((encodedPacket type payload).payload.headD 0#8) else none) := by
  obtain ⟨-, htype⟩ := encodedPacket_metadata_fields type h
  have hrow : packetTypeOf ((metaType (encodedPacket type payload).metadata).setWidth 8) = some type := by
    rw [metaType_setWidth, htype, BitVec.ofNat_toNat, BitVec.setWidth_eq, packetTypeOf_eq_some_iff]
  simp only [Packet.frameRows, hrow]

/-- 30_encoding R54, R73: the control operation of a code is the one the table writes beside it: the 256 bytes. -/
theorem controlOpOf_eq_lookup : ∀ code : Byte, controlOpOf code = controlCodes.lookup code := by decide

/-- 41_packet R94: an encoded packet is the operation `op` exactly when it is a CONTROL packet with `op` at `payload[0]`. -/
theorem encodedPacket_isOperation (type : PacketType) {payload : Bytes} (h : payload.length ≤ 16) (op : Byte) :
    (encodedPacket type payload).isOperation op =
      decide (type = .control ∧ (encodedPacket type payload).payload.headD 0#8 = op) := by
  obtain ⟨-, htype⟩ := encodedPacket_metadata_fields type h
  have hcontrol : type.code.toNat = 1 ↔ type = .control := by cases type <;> decide
  rw [Bool.eq_iff_iff, decide_eq_true_iff, isOperation_iff, htype, hcontrol]

/-- 30_encoding R78: `PKT.CONTROL` loads the encoded CONTROL packet. -/
theorem execAll_pktControl (op : Byte) {more : Bytes} (h : (op :: more).length ≤ 16) (s : State) :
    execAll (pktControl op more) s = answers { s with pkt := some (encodedPacket .control (op :: more)) } [] :=
  (execAll_singleton _ s).trans (exec_pktEncode_loads .control h s)

/-- 30_encoding R78: `PKT.DATA` loads the encoded DATA packet. -/
theorem execAll_pktData {bs : Bytes} (h : bs.length ≤ 16) (s : State) : execAll (pktData bs) s =
    answers { s with pkt := some (encodedPacket .data bs) } [] :=
  (execAll_singleton _ s).trans (exec_pktEncode_loads .data h s)

/-- Settles O30: both are encoded packets. -/
theorem controlAndDataPacketsAreTheirRows : Obligations.ControlAndDataPacketsAreTheirRows := by
  refine ⟨rfl, fun op more s h => ?control, fun bs s h => ?data⟩
  case control =>
    have hlen : (op :: more).length ≤ 16 := Nat.succ_le_succ h
    refine ⟨encodedPacket .control (op :: more), _, execAll_pktControl op hlen s, rfl, ?metadata, ?payload, ?rows,
      encodedPacket_isValid .control hlen, fun b => ?isop⟩
    case metadata =>
      refine (metaByte_toNat .control hlen).trans ?_
      rw [List.length_cons, Nat.add_comm more.length, ← Nat.add_assoc]
      rfl
    case payload =>
      have hpad : 16 - (op :: more).length = 15 - more.length := Nat.succ_sub_succ 15 _
      rw [← hpad]
      rfl
    case rows =>
      rw [encodedPacket_frameRows .control hlen, if_pos rfl, controlOpOf_eq_lookup]
      rfl
    case isop =>
      rw [exec_pktIsop_loaded rfl, encodedPacket_isOperation .control hlen]
      simp [encodedPacket, padPayload, eq_comm]
  case data =>
    refine ⟨encodedPacket .data bs, _, execAll_pktData h s, rfl, ?metadata, rfl, ?rows,
      encodedPacket_isValid .data h, fun b => ?isop⟩
    case metadata => exact (metaByte_toNat .data h).trans (Nat.zero_add _)
    case rows => rw [encodedPacket_frameRows .data h, if_neg (by decide)]
    case isop =>
      rw [exec_pktIsop_loaded rfl, encodedPacket_isOperation .data h]
      rfl

/-! ### `PKT.CLASSIFY` -/

/-- The truth value of an answer that is one. -/
theorem answeredFlag_answers (s : State) (b : Bool) : answeredFlag (answers s [truthByte b]) = some b := by
  cases b <;> rfl

section Loaded

variable {s : State} {p : Packet} (h : s.pkt = some p)
include h

/-- 30_encoding R78: a packet that is not valid is `INVALID`, and `PKT.VALID` was the last operation. -/
theorem pktClassify_of_invalid (hvalid : p.isValid = false) : pktClassify s = (some .invalid, answers s [0#8]) := by
  have hexec := exec_pktValid_loaded h
  rw [hvalid] at hexec
  simp only [pktClassify, hexec, answeredFlag_answers]
  rfl

/-- 30_encoding R78: a valid packet is sorted by whether it is `RETX`, and `PKT.ISOP` was the last operation. -/
theorem pktClassify_of_valid (hvalid : p.isValid = true) : pktClassify s =
    (some (if p.isOperation 0x18#8 then .retxRequest else .deliver), answers s [truthByte (p.isOperation 0x18#8)]) := by
  have hexec := exec_pktValid_loaded h
  have hisop := exec_pktIsop_loaded (s := { s with response := [0x00#8, truthByte true] }) h 0x18#8
  rw [hvalid] at hexec
  have hsort : pktClassify s = ((answeredFlag (exec (.pktIsop 0x18#8) { s with response := [0x00#8, truthByte true] })).map
      fun b => if b then .retxRequest else .deliver,
        exec (.pktIsop 0x18#8) { s with response := [0x00#8, truthByte true] }) := by
    simp only [pktClassify, hexec, answeredFlag_answers]
    rfl
  rw [hsort, hisop, answeredFlag_answers]
  rfl

end Loaded

/-- Settles O31: with no packet `PKT.VALID` ends with an error, and its code is no truth value. -/
theorem classifySortsThreeWays : Obligations.ClassifySortsThreeWays := by
  intro s
  cases hpkt : s.pkt with
  | none =>
    have hexec : exec .pktValid s = fails s 4#4 := needPkt_fails hpkt _
    simp only [pktClassify, hexec]
    rfl
  | some p =>
    dsimp only
    split
    case isTrue hbad =>
      refine pktClassify_of_invalid hpkt (eq_false_of_ne_true fun hvalid => ?_)
      obtain ⟨hlen, hcrc⟩ := (isValid_iff p).mp hvalid
      exact hbad.elim hlen.not_gt (absurd hcrc)
    case isFalse hgood =>
      obtain ⟨hlen, hcrc⟩ := not_or.mp hgood
      rw [pktClassify_of_valid hpkt ((isValid_iff p).mpr ⟨Nat.le_of_not_gt hlen, not_not.mp hcrc⟩)]
      simp only [← isOperation_iff]
      cases p.isOperation 0x18#8 <;> rfl

end Sys2Proof.Machine

namespace Sys2Proof.Machine

open Sys2Proof.Spec

/-! ## Family other: the layouts of the header and signature layout processor

The rules of family 42_header_signature read what was written and write what was read; here they are put one behind the
other. What is new is the image: its bytes, and that `extractImage` takes it apart for both values of `STRICT_PAD`. -/

/-- Settles O32: each conversion's rule, and its bound from the length. -/
theorem byteConversionsAreInverse : Obligations.ByteConversionsAreInverse := by
  refine ⟨fun v => unle_leBytes v.isLt, unle_le16, fun _ => le32_ofNat_unle, fun _ => le16_ofNat_unle,
    fun v hv => unbe_beBytes (k := 32) (by omega), fun bs hbs => ?_⟩
  exact ⟨beBytes_unbe hbs, unbe_lt_of_half hbs, unbe_eq_bigEndian bs⟩

/-- 42_header_signature R117: a packed header is parsed back. -/
theorem parseHeader_pack {h : Header} (hsig : h.sig.length = 64) : parseHeader h.pack = h :=
  parseHeader_fields_append hsig _

/-- Settles O37: the signature of the two numbers is 64 bytes, so the header around it is parsed back. -/
theorem headerAndSignatureRoundTrip : Obligations.HeaderAndSignatureRoundTrip := by
  intro version deviceId size r t s hr ht
  have hr' : signatureR (signatureBytes r.toNat t.toNat) = r.toNat := signatureR_signatureBytes _ (by omega)
  have ht' : signatureS (signatureBytes r.toNat t.toNat) = t.toNat := signatureS_signatureBytes _ (by omega)
  have hparse : parseHeader (Header.pack ⟨version, deviceId, size, signatureBytes r.toNat t.toNat⟩) = _ :=
    parseHeader_pack (by simp [signatureBytes_eq])
  refine ⟨signatureBytes r.toNat t.toNat, Header.pack ⟨version, deviceId, size, signatureBytes r.toNat t.toNat⟩,
    exec_sigPack_answers (by omega) s, exec_hdrPack .., ?parse, hparse, ?unpack, hr', ht'⟩
  case parse => rw [exec_hdrParse, hparse]; rfl
  case unpack => rw [exec_sigUnpack, hr', ht', signatureBytes_eq]

/-! ### The container -/

/-- 42_header_signature R121: `CONT.JOIN` answers the IV and the ciphertext behind their length. -/
theorem exec_contJoin (iv ct : Bytes) (s : State) : exec (.contJoin iv ct) s = answers s (counted (iv ++ ct)) := rfl

/-- Settles O40: 8 bytes always stand in front, and below 2^64 they spell the length. -/
theorem contJoinPutsTheIvInFront : Obligations.ContJoinPutsTheIvInFront := by
  intro iv ct s hiv
  refine ⟨lengthPrefix (iv ++ ct).length, ?_, lengthPrefix_length _, fun hlt => ?_⟩
  · rw [exec_contJoin, counted, List.append_assoc]
  · rw [← hiv, ← List.length_append] at hlt ⊢
    rw [lengthPrefix_eq hlt, unle_leBytes (k := 8) (by omega)]

/-! ### The image -/

/-- A number of at most `BODY_MAX` fits a 32-bit field. -/
theorem le32_ofNat {n : Nat} (h : n ≤ 2 ^ 32 - 1) : le32 (BitVec.ofNat 32 n) = leBytes 4 n := by
  rw [le32, BitVec.toNat_ofNat, Nat.mod_eq_of_lt (by omega)]

section Image

variable (version deviceId : BitVec 32) {sig body : Bytes}

/-- 42_header_signature R119: a body above `BODY_MAX` is `ERR_BODY_SIZE`. -/
theorem exec_imgBuild_fails (hbody : body.length > 2 ^ 32 - 1) (s : State) :
    exec (.imgBuild version deviceId sig body) s = fails s 8#4 := if_pos hbody

/-- 42_header_signature R119: of another body the image is answered behind its length. -/
theorem exec_imgBuild_answers (hbody : body.length ≤ 2 ^ 32 - 1) (s : State) :
    exec (.imgBuild version deviceId sig body) s = answers s (counted (imageBytes version deviceId sig body)) :=
  if_neg hbody.not_gt

/-- 42_header_signature R119, R118: the image's parts, the body's length and the pad written out. -/
theorem imageBytes_eq (hbody : body.length ≤ 2 ^ 32 - 1) : imageBytes version deviceId sig body =
    le32 version ++ le32 deviceId ++ leBytes 4 body.length ++ sig ++ List.replicate 52 0xFF#8 ++ body ++
      List.replicate (16 - body.length % 16) (BitVec.ofNat 8 (16 - body.length % 16)) := by
  rw [← le32_ofNat hbody]
  rfl

/-- 42_header_signature R119: the image is the header and the body, padded to whole blocks. -/
theorem imageBytes_length (hsig : sig.length = 64) (hbody : body.length ≤ 2 ^ 32 - 1) :
    (imageBytes version deviceId sig body).length = 128 + 16 * (body.length / 16 + 1) := by
  rw [imageBytes_eq version deviceId hbody]
  simp only [List.length_append, le32_length, leBytes_length, hsig, List.length_replicate]
  omega

/-- 42_header_signature R119: `IMG.BUILD` answers the image behind its length, which `le64` can count. -/
theorem exec_imgBuild_answers_counted (hsig : sig.length = 64) (hbody : body.length ≤ 2 ^ 32 - 1) (s : State) :
    exec (.imgBuild version deviceId sig body) s = answers s
      (leBytes 8 (imageBytes version deviceId sig body).length ++ imageBytes version deviceId sig body) := by
  have hlen := imageBytes_length version deviceId hsig hbody
  rw [exec_imgBuild_answers version deviceId hbody, counted_eq (by omega)]

/-- 42_header_signature R123: the image is taken apart into its header and its body, whatever `STRICT_PAD` is. -/
theorem extractImage_imageBytes (strict : Bool) (hsig : sig.length = 64) (hbody : body.length ≤ 2 ^ 32 - 1) :
    extractImage strict (imageBytes version deviceId sig body) =
      some (⟨version, deviceId, BitVec.ofNat 32 body.length, sig⟩, body) := by
  have himage : imageBytes version deviceId sig body =
      Header.pack ⟨version, deviceId, BitVec.ofNat 32 body.length, sig⟩ ++ (body ++ pkcs7Pad body.length) :=
    List.append_assoc _ _ _
  have hpack : (Header.pack ⟨version, deviceId, BitVec.ofNat 32 body.length, sig⟩).length = 128 := by
    rw [pack_eq, List.length_append, fields_length hsig, List.length_replicate]
  have hparse : parseHeader (imageBytes version deviceId sig body) =
      ⟨version, deviceId, BitVec.ofNat 32 body.length, sig⟩ := by
    rw [himage, pack_eq, List.append_assoc, parseHeader_fields_append hsig]
  have hsize : unle (((imageBytes version deviceId sig body).drop 8).take 4) = body.length := by
    obtain ⟨-, -, hread⟩ := parseHeader_toNat (imageBytes version deviceId sig body)
    rw [← hread, hparse]
    exact Nat.mod_eq_of_lt (by omega)
  have hread : ((imageBytes version deviceId sig body).drop 128).take body.length = body := by
    rw [himage, List.drop_left' hpack, List.take_left' rfl]
  have hlen := imageBytes_length version deviceId hsig hbody
  rw [extractImage_eq, hsize, hparse, hread, if_neg (by omega), if_neg (by omega), if_neg (by omega)]

end Image

/-- Settles O38: above `BODY_MAX` an error, and otherwise the image's parts and length. -/
theorem imgBuildLaysOutTheImage : Obligations.ImgBuildLaysOutTheImage := by
  intro version deviceId sig body s hsig
  split
  case isTrue hlarge => exact exec_imgBuild_fails version deviceId hlarge s
  case isFalse hfits =>
    have hbody : body.length ≤ 2 ^ 32 - 1 := Nat.le_of_not_gt hfits
    have hlen := imageBytes_length version deviceId hsig hbody
    exact ⟨imageBytes version deviceId sig body, exec_imgBuild_answers_counted version deviceId hsig hbody s,
      imageBytes_eq version deviceId hbody, hlen, by omega⟩

/-- Settles O42: the image `IMG.BUILD` answers is the one `extractImage` takes apart. -/
theorem imageRoundTrip : Obligations.ImageRoundTrip := by
  intro version deviceId sig body s hsig hbody
  have hlen := imageBytes_length version deviceId hsig hbody
  refine ⟨imageBytes version deviceId sig body, exec_imgBuild_answers_counted version deviceId hsig hbody s,
    fun strict => ?extract, fun iv ct hiv hct => ?join⟩
  case extract =>
    rw [exec_imgExtract_answers (s := { s with strictPad := strict })
      (extractImage_imageBytes version deviceId strict hsig hbody), Header.fields, le32_ofNat hbody,
      counted_eq (by omega), ← List.append_assoc]
  case join =>
    have hjoined : (iv ++ ct).length = 16 + 128 + 16 * (body.length / 16 + 1) := by
      rw [List.length_append]
      omega
    exact ⟨by rw [exec_contJoin, counted_eq (by omega)], hjoined⟩

end Sys2Proof.Machine

namespace Sys2Proof.Machine

open Sys2Proof.Spec

/-! ## Family other: which registers an operation reads

An operation that only reads, and a layout operation, comes to a result or an error that is the same in all states with the
same values in the registers it reads, and in each of them it ends by answering or raising it (10_state R22). That it may be
repeated (20_memory R42) and that other registers do not matter are two readings of this. -/

/-! ### What an operation that writes nothing comes to -/

/-- `return v` or `raise E`. -/
def State.conclude (s : State) : Except ErrorCode Bytes → Answer
  | .ok result => s.answer result
  | .error e => s.raise e

/-- The two states hold the same in every register the operation reads (10_state R22), and in `STRICT_PAD`. -/
def ReadsAlike (i : Instr) (s s' : State) : Prop :=
  s'.strictPad = s.strictPad ∧ (readsCrc i = true → s'.crc = s.crc) ∧ (readsPkt i = true → s'.pkt = s.pkt) ∧
    (readsRx i = true → s'.rxbuf = s.rxbuf) ∧ (i = .sysStatus → s'.err = s.err)

/-- A state holds what it holds. -/
theorem ReadsAlike.refl (i : Instr) (s : State) : ReadsAlike i s s :=
  ⟨rfl, fun _ => rfl, fun _ => rfl, fun _ => rfl, fun _ => rfl⟩

/-- The response is read by no operation, and `ERR` by `SYS.STATUS` alone. -/
theorem readsAlike_setErr {i : Instr} (hi : i ≠ .sysStatus) (s : State) (e : BitVec 4) (r : Bytes) :
    ReadsAlike i s { s with err := e, response := r } :=
  ⟨rfl, fun _ => rfl, fun _ => rfl, fun _ => rfl, fun h => absurd h hi⟩

/-- The operation comes to one result or error in all states that read alike. -/
def Concludes (i : Instr) (s : State) : Prop :=
  ∃ o : Except ErrorCode Bytes, ∀ s', ReadsAlike i s s' → exec i s' = s'.conclude o

/-- `need PKT` raises `ERR_EMPTY`, or comes to what the reading of the packet comes to. -/
theorem concludes_of_needPkt {i : Instr} {read : Packet → Except ErrorCode Bytes} (hi : readsPkt i = true)
    (hexec : ∀ s', exec i s' = s'.needPkt fun p => s'.conclude (read p)) (s : State) : Concludes i s := by
  cases hpkt : s.pkt with
  | none =>
    refine ⟨.error .empty, fun s' ⟨_, _, hsame, _⟩ => ?_⟩
    rw [hexec, needPkt_none ((hsame hi).trans hpkt)]
    rfl
  | some p =>
    refine ⟨read p, fun s' ⟨_, _, hsame, _⟩ => ?_⟩
    rw [hexec, needPkt_some ((hsame hi).trans hpkt)]

/-- A check between an error and a result. -/
theorem conclude_ite (s : State) (c : Prop) [Decidable c] (e : ErrorCode) (result : Bytes) :
    s.conclude (if c then .error e else .ok result) = if c then s.raise e else s.answer result := by
  split <;> rfl

/-- 20_memory R42: an operation that only reads, and a layout operation, comes to one result or error in all states that
read alike. -/
theorem exec_query_concludes {i : Instr} (hi : isQuery i = true) (s : State) : Concludes i s := by
  cases i with
  | sysStatus =>
    refine ⟨.ok (le16 s.status), fun s' ⟨_, _, hpkt, hrx, herr⟩ => ?_⟩
    have hstatus : s'.status = s.status := by
      simp only [State.status, State.rxcnt, State.pktLoaded, hpkt rfl, hrx rfl, herr rfl]
    rw [exec_sysStatus, hstatus]
    rfl
  | crcRead => exact ⟨.ok (le16 s.crc), fun s' ⟨_, hcrc, _⟩ => by rw [exec_crcRead, hcrc rfl]; rfl⟩
  | pktRaw => exact concludes_of_needPkt (read := fun p => .ok p.frame) rfl (fun _ => rfl) s
  | pktValid => exact concludes_of_needPkt (read := fun p => .ok [flagByte p.isValid]) rfl (fun _ => rfl) s
  | pktIsop op => exact concludes_of_needPkt (read := fun p => .ok [flagByte (p.isOperation op)]) rfl (fun _ => rfl) s
  | pktType => exact concludes_of_needPkt (read := fun p => .ok [(metaType p.metadata).setWidth 8]) rfl (fun _ => rfl) s
  | pktLen => exact concludes_of_needPkt (read := fun p => .ok [(metaLength p.metadata).setWidth 8]) rfl (fun _ => rfl) s
  | pktCrc => exact concludes_of_needPkt (read := fun p => .ok (le16 p.crcf)) rfl (fun _ => rfl) s
  | pktPayload =>
    refine concludes_of_needPkt (read := fun p => if (metaLength p.metadata).toNat > payloadSize then .error .length
      else .ok ((metaLength p.metadata).setWidth 8 :: p.payload.take (metaLength p.metadata).toNat)) rfl (fun s' => ?_) s
    simp only [conclude_ite]
    rfl
  | sigPack r t => exact ⟨_, fun s' _ => (execSigPack_eq r t s').trans (conclude_ite ..).symm⟩
  | imgBuild version deviceId sig body => exact ⟨_, fun s' _ => (conclude_ite s' (body.length > bodyMax) ..).symm⟩
  | imgExtract plaintext =>
    cases himage : extractImage s.strictPad plaintext with
    | none =>
      exact ⟨.error .malformedImage, fun s' ⟨hpad, _⟩ => exec_imgExtract_fails (hpad ▸ himage)⟩
    | some parts =>
      obtain ⟨hdr, body⟩ := parts
      exact ⟨.ok (hdr.fields ++ counted body), fun s' ⟨hpad, _⟩ => exec_imgExtract_answers (hpad ▸ himage)⟩
  | contSplit container =>
    by_cases hbad : container.length < 16 ∨ (container.length - 16) % 16 ≠ 0
    · exact ⟨.error .malformedImage, fun s' _ => exec_contSplit_fails hbad s'⟩
    · exact ⟨.ok (container.take 16 ++ counted (container.drop 16)), fun s' _ => exec_contSplit_answers hbad s'⟩
  | sigUnpack sig => exact ⟨.ok _, fun s' _ => exec_sigUnpack sig s'⟩
  | hdrPack version deviceId size sig => exact ⟨.ok _, fun s' _ => exec_hdrPack version deviceId size sig s'⟩
  | hdrParse hdr => exact ⟨.ok _, fun s' _ => exec_hdrParse hdr s'⟩
  | contJoin iv ct => exact ⟨.ok _, fun s' _ => exec_contJoin iv ct s'⟩
  | _ => cases hi

/-- Settles O52: the next state reads as the first one does, but for `ERR` after an error, which `SYS.STATUS`, its one
reader, never raises. -/
theorem queriesMayBeRepeated : Obligations.QueriesMayBeRepeated := by
  intro i s t hi h
  by_cases hstatus : i = .sysStatus
  · subst hstatus
    obtain rfl := (answer_eq_next_iff s t (le16 s.status)).mp h
    exact ⟨rfl, rfl, fun _ => rfl⟩
  · obtain ⟨o, ho⟩ := exec_query_concludes hi s
    rw [ho s (.refl i s)] at h
    cases o with
    | ok result =>
      obtain rfl := (answer_eq_next_iff s t result).mp h
      exact ⟨ho _ (readsAlike_setErr hstatus s s.err _), rfl, fun _ => rfl⟩
    | error e =>
      obtain rfl := (raise_eq_next_iff s t e).mp h
      refine ⟨ho _ (readsAlike_setErr hstatus s _ _), rfl, fun hok => ?_⟩
      exact absurd (Option.some.inj hok) (byte_ne_okByte e)

/-! ### Registers that do not matter -/

/-- A query acts the same on a state that reads alike, when answering and raising do. -/
theorem exec_query_update {i : Instr} (hi : isQuery i = true) {s : State} {f : State → State}
    (hf : ReadsAlike i s (f s)) (hconclude : ∀ o, (f s).conclude o = afterwards f (s.conclude o)) :
    exec i (f s) = afterwards f (exec i s) := by
  obtain ⟨o, ho⟩ := exec_query_concludes hi s
  rw [ho _ hf, ho s (.refl i s), hconclude]

/-- A loading operation acts the same on every state, when loading and raising do. -/
theorem exec_loading_update {i : Instr} (hi : LoadsOrRaises i) {s : State} {f : State → State}
    (hraise : ∀ e, (f s).raise e = afterwards f (s.raise e))
    (hload : ∀ p, answers { f s with pkt := some p } [] = afterwards f (answers { s with pkt := some p } [])) :
    exec i (f s) = afterwards f (exec i s) := by
  obtain ⟨e, he⟩ | ⟨p, -, hp⟩ := hi
  · rw [he, he, hraise]
  · rw [hp, hp, hload]

/-- 10_state R22: an operation that neither reads nor writes `CRC` acts the same whatever it holds. -/
theorem exec_setCrc {i : Instr} (hr : readsCrc i = false) (hw : writesCrc i = false) (s : State) (c : BitVec 16) :
    exec i { s with crc := c } = afterwards (fun t => { t with crc := c }) (exec i s) := by
  cases i with
  | sysReset | crcInit | crcByte _ => cases hw
  | crcRead => cases hr
  | sysClrerr | data _ | control _ | ack | nack | retx | synced | updateRequest | fwSizeRequest | fwUpdateDone => rfl
  | pktEncode type payload =>
    exact exec_loading_update (f := fun t => { t with crc := c }) (pktEncode_loadsOrRaises type payload) (fun _ => rfl)
      fun _ => rfl
  | pktDecode frame =>
    exact exec_loading_update (f := fun t => { t with crc := c }) (pktDecode_loadsOrRaises frame) (fun _ => rfl)
      fun _ => rfl
  | rxPush b =>
    have hcount : { s with crc := c }.rxcnt = s.rxcnt := rfl
    simp only [exec, execRxPush, hcount]
    split <;> rfl
  | _ =>
    exact exec_query_update (f := fun t => { t with crc := c }) rfl
      ⟨rfl, fun h => absurd h (by simp [hr]), fun _ => rfl, fun _ => rfl, fun _ => rfl⟩ fun o => by cases o <;> rfl

/-- 10_state R22: an operation that neither reads nor writes `PKT` acts the same whatever it holds. -/
theorem exec_setPkt {i : Instr} (hr : readsPkt i = false) (hw : writesPkt i = false) (s : State) (p : Option Packet) :
    exec i { s with pkt := p } = afterwards (fun t => { t with pkt := p }) (exec i s) := by
  cases i with
  | sysReset | pktEncode _ _ | pktDecode _ | rxPush _ => cases hw
  | sysClrerr | crcInit | crcByte _ => rfl
  | data _ | control _ | ack | nack | retx | synced | updateRequest | fwSizeRequest | fwUpdateDone => rfl
  | _ =>
    exact exec_query_update (f := fun t => { t with pkt := p }) rfl
      ⟨rfl, fun _ => rfl, fun h => absurd h (by simp [hr]), fun _ => rfl, fun _ => rfl⟩ fun o => by cases o <;> rfl

/-- 10_state R22: an operation that neither reads nor writes the accumulator acts the same whatever it holds. -/
theorem exec_setRxbuf {i : Instr} (hr : readsRx i = false) (hw : writesRx i = false) (s : State) (b : Bytes) :
    exec i { s with rxbuf := b } = afterwards (fun t => { t with rxbuf := b }) (exec i s) := by
  cases i with
  | sysReset | rxPush _ => cases hw
  | sysClrerr | crcInit | crcByte _ => rfl
  | data _ | control _ | ack | nack | retx | synced | updateRequest | fwSizeRequest | fwUpdateDone => rfl
  | pktEncode type payload =>
    exact exec_loading_update (f := fun t => { t with rxbuf := b }) (pktEncode_loadsOrRaises type payload) (fun _ => rfl)
      fun _ => rfl
  | pktDecode frame =>
    exact exec_loading_update (f := fun t => { t with rxbuf := b }) (pktDecode_loadsOrRaises frame) (fun _ => rfl)
      fun _ => rfl
  | _ =>
    exact exec_query_update (f := fun t => { t with rxbuf := b }) rfl
      ⟨rfl, fun _ => rfl, fun _ => rfl, fun h => absurd h (by simp [hr]), fun _ => rfl⟩ fun o => by cases o <;> rfl

/-- Settles O54: the three registers. -/
theorem operationsReadOnlyTheirRegisters : Obligations.OperationsReadOnlyTheirRegisters :=
  fun _ s => ⟨fun c hr hw => exec_setCrc hr hw s c, fun p hr hw => exec_setPkt hr hw s p,
    fun b hr hw => exec_setRxbuf hr hw s b⟩

end Sys2Proof.Machine
